-- ==== Sys2Proof/Word.lean ====
section
/-! DEFINITION. The word types of the CHIP-8 core (spec 00_scope.md R5, R7, R8): every quantity is an
unsigned bit vector of the width the spec states. -/

namespace Sys2Proof

/-- A four-bit field of an opcode: a register index or `N` (30_encoding.md R81, R82). -/
abbrev Nibble := BitVec 4

/-- A memory cell or a general register (`CELL_W`, `REG_W`, `TIMER_W` = 8). -/
abbrev Byte := BitVec 8

/-- The 12-bit immediate `NNN` (30_encoding.md R82). -/
abbrev Imm12 := BitVec 12

/-- An opcode, PC, I or a stack entry (16 bits). -/
abbrev Word := BitVec 16

/-- A key number, 0 to 15: the key events carry four bits (45_keypad_timer.md R221). -/
abbrev Key := BitVec 4

end Sys2Proof
end

