-- ==== Sys2Proof/Syntax.lean ====
section
/-! DEFINITION. The 34 instructions of the opcode table (spec 30_encoding.md R85), one constructor a
row, named after the row's pattern, which is the spec's mnemonic (R93). A word that matches no row is
no instruction (R89, R90): the decoder answers it as unknown. -/

namespace Sys2Proof

/-- An instruction with its operand fields, in the order the fields stand in the pattern (R82). -/
inductive Instr where
  /-- `00E0`: clear the display. -/
  | op00E0
  /-- `00EE`: return from subroutine. -/
  | op00EE
  /-- `1NNN`: jump. -/
  | op1NNN (nnn : Imm12)
  /-- `2NNN`: call. -/
  | op2NNN (nnn : Imm12)
  /-- `3XNN`: skip if `Vx = NN`. -/
  | op3XNN (x : Nibble) (nn : Byte)
  /-- `4XNN`: skip if `Vx != NN`. -/
  | op4XNN (x : Nibble) (nn : Byte)
  /-- `5XY0`: skip if `Vx = Vy`. -/
  | op5XY0 (x y : Nibble)
  /-- `6XNN`: `Vx = NN`. -/
  | op6XNN (x : Nibble) (nn : Byte)
  /-- `7XNN`: `Vx = Vx + NN`, no flag. -/
  | op7XNN (x : Nibble) (nn : Byte)
  /-- `8XY0`: `Vx = Vy`. -/
  | op8XY0 (x y : Nibble)
  /-- `8XY1`: `Vx = Vx OR Vy`. -/
  | op8XY1 (x y : Nibble)
  /-- `8XY2`: `Vx = Vx AND Vy`. -/
  | op8XY2 (x y : Nibble)
  /-- `8XY3`: `Vx = Vx XOR Vy`. -/
  | op8XY3 (x y : Nibble)
  /-- `8XY4`: `Vx = Vx + Vy`, VF the carry. -/
  | op8XY4 (x y : Nibble)
  /-- `8XY5`: `Vx = Vx - Vy`, VF no borrow. -/
  | op8XY5 (x y : Nibble)
  /-- `8XY6`: `Vx = Vy >> 1`, VF the bit shifted out. -/
  | op8XY6 (x y : Nibble)
  /-- `8XY7`: `Vx = Vy - Vx`, VF no borrow. -/
  | op8XY7 (x y : Nibble)
  /-- `8XYE`: `Vx = Vy << 1`, VF the bit shifted out. -/
  | op8XYE (x y : Nibble)
  /-- `9XY0`: skip if `Vx != Vy`. -/
  | op9XY0 (x y : Nibble)
  /-- `ANNN`: `I = NNN`. -/
  | opANNN (nnn : Imm12)
  /-- `BNNN`: `PC = NNN + V0`. -/
  | opBNNN (nnn : Imm12)
  /-- `CXNN`: `Vx = random AND NN`. -/
  | opCXNN (x : Nibble) (nn : Byte)
  /-- `DXYN`: draw an `N`-row sprite from `I` at `(Vx, Vy)`. -/
  | opDXYN (x y n : Nibble)
  /-- `EX9E`: skip if key `Vx` is pressed. -/
  | opEX9E (x : Nibble)
  /-- `EXA1`: skip if key `Vx` is not pressed. -/
  | opEXA1 (x : Nibble)
  /-- `FX07`: `Vx = DT`. -/
  | opFX07 (x : Nibble)
  /-- `FX0A`: wait for a released key. -/
  | opFX0A (x : Nibble)
  /-- `FX15`: `DT = Vx`. -/
  | opFX15 (x : Nibble)
  /-- `FX18`: `ST = Vx`. -/
  | opFX18 (x : Nibble)
  /-- `FX1E`: `I = I + Vx`. -/
  | opFX1E (x : Nibble)
  /-- `FX29`: `I` = address of glyph `Vx`. -/
  | opFX29 (x : Nibble)
  /-- `FX33`: store the three decimal digits of `Vx`. -/
  | opFX33 (x : Nibble)
  /-- `FX55`: store `V0` to `Vx`. -/
  | opFX55 (x : Nibble)
  /-- `FX65`: load `V0` to `Vx`. -/
  | opFX65 (x : Nibble)
  deriving DecidableEq, Repr

end Sys2Proof
end

