-- ==== Sys2Proof/Decode.lean ====
section
/-! DEFINITION. The opcode word, its fields, the decoder and the encoder (spec 30_encoding.md). -/

namespace Sys2Proof

/-! ## Fields of the opcode word (R81, R82) -/

/-- `n3`, the top nibble `op[15:12]` (R81). -/
def fieldTop (op : Word) : Nibble := op.extractLsb' 12 4

/-- `X`, `op[11:8]` (R82). -/
def fieldX (op : Word) : Nibble := op.extractLsb' 8 4

/-- `Y`, `op[7:4]` (R82). -/
def fieldY (op : Word) : Nibble := op.extractLsb' 4 4

/-- `N` (also `n0`), `op[3:0]` (R82). -/
def fieldN (op : Word) : Nibble := op.extractLsb' 0 4

/-- `NN` (also the trailing byte), `op[7:0]` (R82). -/
def fieldNN (op : Word) : Byte := op.extractLsb' 0 8

/-- `NNN`, `op[11:0]` (R82). -/
def fieldNNN (op : Word) : Imm12 := op.extractLsb' 0 12

/-- Two bytes in memory order as an opcode: the lower address holds the high byte (20_memory.md R55). -/
def wordOfBytes (hi lo : Byte) : Word := hi ++ lo

/-- The byte of an opcode that stands at the lower address, `op[15:8]` (20_memory.md R55). -/
def highByte (op : Word) : Byte := op.extractLsb' 8 8

/-- The byte of an opcode that stands at the higher address, `op[7:0]` (20_memory.md R55). -/
def lowByte (op : Word) : Byte := op.extractLsb' 0 8

/-! ## Decode (R86 to R90) -/

/-- The outcome of decode: one of the 34 instructions, or "unknown", with the word that matches no row
(R86). -/
inductive Decoded where
  | instr (i : Instr)
  | unknown (op : Word)
  deriving DecidableEq, Repr

/-- Decode of family 8, by the trailing nibble (R86, R87). -/
def decode8 (op : Word) : Decoded :=
  let x := fieldX op
  let y := fieldY op
  match (fieldN op).toNat with
  | 0x0 => .instr (.op8XY0 x y)
  | 0x1 => .instr (.op8XY1 x y)
  | 0x2 => .instr (.op8XY2 x y)
  | 0x3 => .instr (.op8XY3 x y)
  | 0x4 => .instr (.op8XY4 x y)
  | 0x5 => .instr (.op8XY5 x y)
  | 0x6 => .instr (.op8XY6 x y)
  | 0x7 => .instr (.op8XY7 x y)
  | 0xE => .instr (.op8XYE x y)
  | _ => .unknown op

/-- Decode of family E, by the trailing byte (R86, R87). -/
def decodeE (op : Word) : Decoded :=
  match (fieldNN op).toNat with
  | 0x9E => .instr (.opEX9E (fieldX op))
  | 0xA1 => .instr (.opEXA1 (fieldX op))
  | _ => .unknown op

/-- Decode of family F, by the trailing byte (R86, R87). -/
def decodeF (op : Word) : Decoded :=
  let x := fieldX op
  match (fieldNN op).toNat with
  | 0x07 => .instr (.opFX07 x)
  | 0x0A => .instr (.opFX0A x)
  | 0x15 => .instr (.opFX15 x)
  | 0x18 => .instr (.opFX18 x)
  | 0x1E => .instr (.opFX1E x)
  | 0x29 => .instr (.opFX29 x)
  | 0x33 => .instr (.opFX33 x)
  | 0x55 => .instr (.opFX55 x)
  | 0x65 => .instr (.opFX65 x)
  | _ => .unknown op

/-- Decode, a pure and total function of the word alone (R86). Family 0 is matched by the whole word
(R87), families 5 and 9 ask for a trailing 0 (R88). -/
def decode (op : Word) : Decoded :=
  let x := fieldX op
  let y := fieldY op
  let nn := fieldNN op
  let nnn := fieldNNN op
  match (fieldTop op).toNat with
  | 0x0 =>
    if op = 0x00E0#16 then .instr .op00E0
    else if op = 0x00EE#16 then .instr .op00EE
    else .unknown op
  | 0x1 => .instr (.op1NNN nnn)
  | 0x2 => .instr (.op2NNN nnn)
  | 0x3 => .instr (.op3XNN x nn)
  | 0x4 => .instr (.op4XNN x nn)
  | 0x5 => if fieldN op = 0 then .instr (.op5XY0 x y) else .unknown op
  | 0x6 => .instr (.op6XNN x nn)
  | 0x7 => .instr (.op7XNN x nn)
  | 0x8 => decode8 op
  | 0x9 => if fieldN op = 0 then .instr (.op9XY0 x y) else .unknown op
  | 0xA => .instr (.opANNN nnn)
  | 0xB => .instr (.opBNNN nnn)
  | 0xC => .instr (.opCXNN x nn)
  | 0xD => .instr (.opDXYN x y (fieldN op))
  | 0xE => decodeE op
  | _ => decodeF op

/-- Decode of an instruction as it lies in memory, on any bytes: its two bytes in address order and
whatever follows (R80, R92). With fewer than two bytes there is no instruction. -/
def decodeBytes : List Byte → Option (Decoded × List Byte)
  | hi :: lo :: rest => some (decode (wordOfBytes hi lo), rest)
  | _ => none

/-- The instruction the decoder reads from a table word whose low `nbits` bits are those of `w`, bit 0
the least significant bit of the opcode as in spec/opcode_table.json; the word is laid out high byte
first, as the hardware stores it, and given to the decoder. -/
def decodeTableWord (nbits w : Nat) : Option Instr :=
  let op : Word := BitVec.ofNat 16 (w % 2 ^ nbits)
  match decodeBytes [highByte op, lowByte op] with
  | some (.instr i, _) => some i
  | _ => none

/-! ## Encode (R83, R85) -/

/-- Format `NNN` (R83). -/
def packNNN (top : Nibble) (nnn : Imm12) : Word := top ++ nnn

/-- Format `XNN` (R83). -/
def packXNN (top x : Nibble) (nn : Byte) : Word := top ++ (x ++ nn)

/-- Formats `XY` and `XYN` (R83): the last nibble is the sub-opcode or `N`. -/
def packXYN (top x y n : Nibble) : Word := top ++ (x ++ (y ++ n))

/-- Format `X` (R83): the trailing byte is the sub-opcode. -/
def packX (top x : Nibble) (sub : Byte) : Word := packXNN top x sub

/-- The opcode word of an instruction, from the literals and formats of the opcode map (R83, R85). -/
def encode : Instr → Word
  | .op00E0 => 0x00E0
  | .op00EE => 0x00EE
  | .op1NNN nnn => packNNN 0x1 nnn
  | .op2NNN nnn => packNNN 0x2 nnn
  | .op3XNN x nn => packXNN 0x3 x nn
  | .op4XNN x nn => packXNN 0x4 x nn
  | .op5XY0 x y => packXYN 0x5 x y 0x0
  | .op6XNN x nn => packXNN 0x6 x nn
  | .op7XNN x nn => packXNN 0x7 x nn
  | .op8XY0 x y => packXYN 0x8 x y 0x0
  | .op8XY1 x y => packXYN 0x8 x y 0x1
  | .op8XY2 x y => packXYN 0x8 x y 0x2
  | .op8XY3 x y => packXYN 0x8 x y 0x3
  | .op8XY4 x y => packXYN 0x8 x y 0x4
  | .op8XY5 x y => packXYN 0x8 x y 0x5
  | .op8XY6 x y => packXYN 0x8 x y 0x6
  | .op8XY7 x y => packXYN 0x8 x y 0x7
  | .op8XYE x y => packXYN 0x8 x y 0xE
  | .op9XY0 x y => packXYN 0x9 x y 0x0
  | .opANNN nnn => packNNN 0xA nnn
  | .opBNNN nnn => packNNN 0xB nnn
  | .opCXNN x nn => packXNN 0xC x nn
  | .opDXYN x y n => packXYN 0xD x y n
  | .opEX9E x => packX 0xE x 0x9E
  | .opEXA1 x => packX 0xE x 0xA1
  | .opFX07 x => packX 0xF x 0x07
  | .opFX0A x => packX 0xF x 0x0A
  | .opFX15 x => packX 0xF x 0x15
  | .opFX18 x => packX 0xF x 0x18
  | .opFX1E x => packX 0xF x 0x1E
  | .opFX29 x => packX 0xF x 0x29
  | .opFX33 x => packX 0xF x 0x33
  | .opFX55 x => packX 0xF x 0x55
  | .opFX65 x => packX 0xF x 0x65

/-! ## The opcode map as a table (R85) -/

/-- A row of the opcode map: its number (column `#`), its mask and its match value (R85). -/
structure OpcodeRow where
  number : Nat
  mask : Word
  pattern : Word
  deriving DecidableEq, Repr

/-- The 34 rows of the opcode map, in the table's order (R85). -/
def opcodeTable : List OpcodeRow :=
  [⟨1, 0xFFFF, 0x00E0⟩, ⟨2, 0xFFFF, 0x00EE⟩, ⟨3, 0xF000, 0x1000⟩, ⟨4, 0xF000, 0x2000⟩,
   ⟨5, 0xF000, 0x3000⟩, ⟨6, 0xF000, 0x4000⟩, ⟨7, 0xF00F, 0x5000⟩, ⟨8, 0xF000, 0x6000⟩,
   ⟨9, 0xF000, 0x7000⟩] ++
  [⟨10, 0xF00F, 0x8000⟩, ⟨11, 0xF00F, 0x8001⟩, ⟨12, 0xF00F, 0x8002⟩, ⟨13, 0xF00F, 0x8003⟩,
   ⟨14, 0xF00F, 0x8004⟩, ⟨15, 0xF00F, 0x8005⟩, ⟨16, 0xF00F, 0x8006⟩, ⟨17, 0xF00F, 0x8007⟩,
   ⟨18, 0xF00F, 0x800E⟩, ⟨19, 0xF00F, 0x9000⟩] ++
  [⟨20, 0xF000, 0xA000⟩, ⟨21, 0xF000, 0xB000⟩, ⟨22, 0xF000, 0xC000⟩, ⟨23, 0xF000, 0xD000⟩,
   ⟨24, 0xF0FF, 0xE09E⟩, ⟨25, 0xF0FF, 0xE0A1⟩, ⟨26, 0xF0FF, 0xF007⟩, ⟨27, 0xF0FF, 0xF00A⟩,
   ⟨28, 0xF0FF, 0xF015⟩, ⟨29, 0xF0FF, 0xF018⟩, ⟨30, 0xF0FF, 0xF01E⟩, ⟨31, 0xF0FF, 0xF029⟩,
   ⟨32, 0xF0FF, 0xF033⟩, ⟨33, 0xF0FF, 0xF055⟩, ⟨34, 0xF0FF, 0xF065⟩]

/-- The number of the row an instruction is (column `#` of R85). -/
def rowNumber : Instr → Nat
  | .op00E0 => 1
  | .op00EE => 2
  | .op1NNN _ => 3
  | .op2NNN _ => 4
  | .op3XNN _ _ => 5
  | .op4XNN _ _ => 6
  | .op5XY0 _ _ => 7
  | .op6XNN _ _ => 8
  | .op7XNN _ _ => 9
  | .op8XY0 _ _ => 10
  | .op8XY1 _ _ => 11
  | .op8XY2 _ _ => 12
  | .op8XY3 _ _ => 13
  | .op8XY4 _ _ => 14
  | .op8XY5 _ _ => 15
  | .op8XY6 _ _ => 16
  | .op8XY7 _ _ => 17
  | .op8XYE _ _ => 18
  | .op9XY0 _ _ => 19
  | .opANNN _ => 20
  | .opBNNN _ => 21
  | .opCXNN _ _ => 22
  | .opDXYN _ _ _ => 23
  | .opEX9E _ => 24
  | .opEXA1 _ => 25
  | .opFX07 _ => 26
  | .opFX0A _ => 27
  | .opFX15 _ => 28
  | .opFX18 _ => 29
  | .opFX1E _ => 30
  | .opFX29 _ => 31
  | .opFX33 _ => 32
  | .opFX55 _ => 33
  | .opFX65 _ => 34

end Sys2Proof
end

