-- ==== Sys2Proof/Config.lean ====
section
/-! DEFINITION. What is fixed for the machine (spec 00_scope.md R5) and the one free value the spec
leaves open, the random byte (42_alu.md R158). The font bytes, which are a parameter too, stand in
Sys2Proof/Machine/Memory.lean. -/

namespace Sys2Proof.Config

/-- `MEM_SIZE`: addresses 0 to 4095. -/
abbrev memSize : Nat := 4096

/-- `FONT_BASE`: address of the first glyph byte. -/
abbrev fontBase : Nat := 0x050

/-- `FONT_SIZE`: 16 glyphs of 5 bytes. -/
abbrev fontSize : Nat := 80

/-- `GLYPH_STRIDE`: bytes per glyph. -/
abbrev glyphStride : Nat := 5

/-- `PROG_BASE`: address of the first program byte and reset value of PC. -/
abbrev progBase : Nat := 0x200

/-- `PROG_MAX`: the largest program, `4096 - 0x200` bytes. -/
abbrev progMax : Nat := 3584

/-- `STACK_DEPTH`: entries of the call stack. -/
abbrev stackDepth : Nat := 16

/-- `FB_W`: framebuffer columns. -/
abbrev fbWidth : Nat := 64

/-- `FB_H`: framebuffer rows. -/
abbrev fbHeight : Nat := 32

/-- The random byte consumed by the `n`-th executed `CXNN` (42_alu.md R158, 93 U8: any value).
A FREE VALUE: it has no body, so a claim that holds of the model holds for every random source.
Log 3. -/
opaque rnd : Nat → Byte

end Sys2Proof.Config
end

