-- ==== Sys2Proof/Machine/State.lean ====
section
/-! DEFINITION. The machine's state as plain data (spec 10_state.md R20 to R32), its value after reset
(R34), the host's events (00_scope.md R6) and the ways a step can stop. -/

namespace Sys2Proof.Machine

/-- The kinds of fault, `FAULT.code` (60_exceptions.md R251). -/
inductive FaultCode where
  /-- 0: no fault is latched. -/
  | none
  /-- 1: an access at an address of 4096 or more. -/
  | memoryFault
  /-- 2: `2NNN` with the stack full. -/
  | stackOverflow
  /-- 3: `00EE` with the stack empty. -/
  | stackUnderflow
  /-- 4: `EX9E` or `EXA1` with a key number above 15. -/
  | invalidKey
  deriving DecidableEq, Repr

/-- The access kinds, `FAULT.access` (10_state.md R29). -/
inductive AccessKind where
  /-- 0: the fault is not of an access. -/
  | none
  /-- 1: instruction fetch. -/
  | fetch
  /-- 2: data read. -/
  | dataRead
  /-- 3: data write. -/
  | dataWrite
  deriving DecidableEq, Repr

/-- The fault latch `FAULT` (10_state.md R29): 3 bits of code, 2 of access kind, 17 of info. -/
structure FaultLatch where
  code : FaultCode
  access : AccessKind
  info : BitVec 17
  deriving DecidableEq, Repr

/-- The empty latch: code 0, access 0, info 0 (60_exceptions.md R251, first row). -/
def FaultLatch.clear : FaultLatch := ⟨.none, .none, 0⟩

/-- The number a fault code is stored as (60_exceptions.md R251). -/
def FaultCode.number : FaultCode → BitVec 3
  | .none => 0
  | .memoryFault => 1
  | .stackOverflow => 2
  | .stackUnderflow => 3
  | .invalidKey => 4

/-- The number an access kind is stored as (10_state.md R29). -/
def AccessKind.number : AccessKind → BitVec 2
  | .none => 0
  | .fetch => 1
  | .dataRead => 2
  | .dataWrite => 3

/-- Who updates the timers, the parameter `TIMER_MODE` (00_scope.md R5, 60_exceptions.md R262, R263). -/
inductive TimerMode where
  | separate
  | coupled
  deriving DecidableEq, Repr

/-- Main memory: the cells that differ from what an unlisted address reads as, by rising address
(10_state.md R30; Sys2Proof/Machine/Memory.lean reads and writes it). -/
abbrev Memory := List Host.Cell

/-- The framebuffer: 32 rows of 64 pixels, row 0 at the top, column 0 at the left; `true` is a lit
pixel (10_state.md R31). -/
abbrev Framebuffer := Vector (Vector Bool Config.fbWidth) Config.fbHeight

/-- What an `UnknownOpcode` event carries: the word and the address it was fetched from
(60_exceptions.md R258). -/
structure UnknownOpcode where
  op : Word
  address : Word
  deriving DecidableEq, Repr

/-- The host's events (00_scope.md R6). -/
inductive HostEvent where
  | reset
  | load (bytes : List Byte)
  | step
  | tick
  | keyPress (k : Key)
  | keyRelease (k : Key)
  | redrawAck
  deriving DecidableEq, Repr

/-- The state of the core (10_state.md R20 to R32) and, after `latch`, the model's own fields. -/
structure State where
  /-- `V[0]` to `V[15]` (R20); `V[15]` is also the flag register VF (R22). -/
  v : Vector Byte 16
  /-- `PC` (R23). -/
  pc : Word
  /-- `I` (R24). -/
  index : Word
  /-- `STACK[0]` to `STACK[15]` (R25). -/
  stack : Vector Word Config.stackDepth
  /-- `SP`, the number of entries in use, 0 to 16 (R25). Log 28. -/
  sp : Fin 17
  /-- `DT`, the delay timer (R26). -/
  dt : Byte
  /-- `ST`, the sound timer (R26). -/
  st : Byte
  /-- `halted_for_key` (R27). -/
  haltedForKey : Bool
  /-- `needs_redraw` (R28). -/
  needsRedraw : Bool
  /-- `FAULT` (R29). -/
  fault : FaultLatch
  /-- `MEM` (R30). -/
  mem : Memory
  /-- `FB` (R31). -/
  fb : Framebuffer
  /-- `KEY[0]` to `KEY[15]`, `true` = pressed (R32). -/
  keys : Vector Bool 16
  /-- `LATCH`, the last released key not yet taken (R32). -/
  latch : Option Key
  /-- The parameter `TIMER_MODE`, which no event changes. DESIGN CHOICE, log 2. -/
  timerMode : TimerMode
  /-- How many random bytes have been consumed: picks the next free value. DESIGN CHOICE, log 3. -/
  rndCount : Nat
  /-- The `UnknownOpcode` event the last host event made visible (60_exceptions.md R258). DESIGN CHOICE,
  log 7. -/
  event : Option UnknownOpcode
  /-- Whether a STEP has been taken since the last RESET (70_reset_and_hazards.md R294). DESIGN CHOICE,
  log 5. -/
  stepped : Bool
  /-- The events the host is about to raise, in order; when none is listed it raises STEP.
  DESIGN CHOICE, log 4. -/
  hostEvents : List HostEvent
  deriving DecidableEq, Repr

/-- Faults that stop the model. There is none: each fault of the spec is a next state with the latch
`FAULT` written, after which STEP does nothing (60_exceptions.md R252, 40_cycle.md R106). Log 27. -/
inductive Fault where
  deriving DecidableEq, Repr

/-- Reasons the model has no move. No instruction answers with one of them. -/
inductive Refusal where
  /-- An instruction without a meaning, raised by an arm of `exec` alone. Safe. No arm raises it. -/
  | notModelled (mnemonic : String)
  /-- `LOAD` of more than 3584 bytes, raised by the event LOAD (70_reset_and_hazards.md R295,
  93_implementation_defined.md U17: refuse). Safe: the spec defines no such load. Log 6. -/
  | programTooLarge
  /-- `LOAD` after the first STEP since RESET, raised by the event LOAD (70_reset_and_hazards.md R294,
  93_implementation_defined.md U17: refuse). Safe: the spec defines no such load. Log 5. -/
  | loadAfterStep
  deriving DecidableEq, Repr

/-- The machine after power-on and RESET (10_state.md R34, 70_reset_and_hazards.md R290, R291), with
nothing loaded and no host event announced. Memory lists nothing: an unlisted address reads as the
font or 0. -/
def State.reset : State where
  v := Vector.replicate 16 0
  pc := BitVec.ofNat 16 Config.progBase
  index := 0
  stack := Vector.replicate Config.stackDepth 0
  sp := 0
  dt := 0
  st := 0
  haltedForKey := false
  needsRedraw := false
  fault := FaultLatch.clear
  mem := []
  fb := Vector.replicate Config.fbHeight (Vector.replicate Config.fbWidth false)
  keys := Vector.replicate 16 false
  latch := none
  timerMode := .separate
  rndCount := 0
  event := none
  stepped := false
  hostEvents := []

end Sys2Proof.Machine
end

