-- ==== Sys2Proof/Machine/Framebuffer.lean ====
section
/-! DEFINITION. The framebuffer controller's operations and the host's views of it
(spec 44_display.md R190 to R197). Coordinates are a 6-bit column and a 5-bit row (R195), so no query
out of range can be formed and column arithmetic wraps within the row. -/

namespace Sys2Proof.Machine

/-- `clear()`: every pixel 0 (R190). -/
def Framebuffer.blank : Framebuffer :=
  Vector.replicate Config.fbHeight (Vector.replicate Config.fbWidth false)

/-- `get(x, y)` (R191, R195): the pixel at column `x`, row `y`. -/
def Framebuffer.pixel (fb : Framebuffer) (x : BitVec 6) (y : BitVec 5) : Bool :=
  (fb[y.toNat]'y.isLt)[x.toNat]'x.isLt

/-- `set(x, y, bit)` (R192). -/
def Framebuffer.setPixel (fb : Framebuffer) (x : BitVec 6) (y : BitVec 5) (bit : Bool) : Framebuffer :=
  fb.set y.toNat ((fb[y.toNat]'y.isLt).set x.toNat bit x.isLt) y.isLt

/-- Eight bits packed most significant first: bit `7 - i` is `p i`. -/
def packByte (p : Nat → Bool) : Byte :=
  BitVec.ofBool (p 0) ++ BitVec.ofBool (p 1) ++ BitVec.ofBool (p 2) ++ BitVec.ofBool (p 3) ++
    BitVec.ofBool (p 4) ++ BitVec.ofBool (p 5) ++ BitVec.ofBool (p 6) ++ BitVec.ofBool (p 7)

/-- `get_byte(x, y)` (R193): the eight pixels from column `x`, wrapping in the row, most significant
first. -/
def Framebuffer.getByte (fb : Framebuffer) (x : BitVec 6) (y : BitVec 5) : Byte :=
  packByte fun i => fb.pixel (x + BitVec.ofNat 6 i) y

/-- `set_byte(x, y, byte)` (R194): bit `7 - i` of the byte goes to column `(x + i) mod 64`. -/
def Framebuffer.setByte (fb : Framebuffer) (x : BitVec 6) (y : BitVec 5) (b : Byte) : Framebuffer :=
  (List.range 8).foldl (fun fb i => fb.setPixel (x + BitVec.ofNat 6 i) y (b.getLsbD (7 - i))) fb

/-! ## The host's views -/

/-- Row export (R196): byte `j` of the eight is `get_byte(8 * j, y)`. -/
def Framebuffer.rowExport (fb : Framebuffer) (y : BitVec 5) : List Byte :=
  (List.range 8).map fun j => fb.getByte (BitVec.ofNat 6 (8 * j)) y

/-- Frame export (R196): the 32 rows in order, 256 bytes. -/
def Framebuffer.frameExport (fb : Framebuffer) : List Byte :=
  (List.range Config.fbHeight).flatMap fun y => fb.rowExport (BitVec.ofNat 5 y)

/-- One line of the text rendering (R197): `X` for a lit pixel, `.` for a dark one. -/
def Framebuffer.textLine (fb : Framebuffer) (y : BitVec 5) : List Char :=
  (List.range Config.fbWidth).map fun x => if fb.pixel (BitVec.ofNat 6 x) y then 'X' else '.'

/-- `to_string()` (R197): 32 lines, one newline between lines and none after the last. Log 24. -/
def Framebuffer.text (fb : Framebuffer) : List Char :=
  (List.range Config.fbHeight).flatMap fun y =>
    (if y = 0 then [] else ['\n']) ++ fb.textLine (BitVec.ofNat 5 y)

end Sys2Proof.Machine
end

