-- ==== Sys2Proof/Machine/Memory.lean ====
section
/-! DEFINITION. Main memory: the font constant, what an unlisted address reads as, the raw and the
bounds-checked accesses, and the canonical form (spec 20_memory.md, 10_state.md R30, R34, R36). -/

namespace Sys2Proof.Machine

/-- The `FONT` constant, glyphs 0 to F of five bytes each (10_state.md R36). PRESUMED: the customary
table, the parameter's default; the source gives no byte of it. Log 1. -/
def fontTable : List Byte :=
  [0xF0, 0x90, 0x90, 0x90, 0xF0,  0x20, 0x60, 0x20, 0x20, 0x70,
   0xF0, 0x10, 0xF0, 0x80, 0xF0,  0xF0, 0x10, 0xF0, 0x10, 0xF0] ++
  [0x90, 0x90, 0xF0, 0x10, 0x10,  0xF0, 0x80, 0xF0, 0x10, 0xF0,
   0xF0, 0x80, 0xF0, 0x90, 0xF0,  0xF0, 0x10, 0x20, 0x40, 0x40] ++
  [0xF0, 0x90, 0xF0, 0x90, 0xF0,  0xF0, 0x90, 0xF0, 0x10, 0xF0,
   0xF0, 0x90, 0xF0, 0x90, 0x90,  0xE0, 0x90, 0xE0, 0x90, 0xE0] ++
  [0xF0, 0x80, 0x80, 0x80, 0xF0,  0xE0, 0x90, 0x90, 0x90, 0xE0,
   0xF0, 0x80, 0xF0, 0x80, 0xF0,  0xF0, 0x80, 0xF0, 0x80, 0x80]

/-- What an address that memory does not list reads as: its contents after power-on and RESET, the font
at `0x050..0x09F` and 0 elsewhere (10_state.md R34, 20_memory.md R58). Log 11. -/
def unlisted (a : Nat) : Byte :=
  if Config.fontBase ≤ a ∧ a < Config.fontBase + Config.fontSize then
    fontTable.getD (a - Config.fontBase) 0
  else 0

/-- The byte listed for an address, if any. -/
def Memory.lookup : Memory → Nat → Option Byte
  | [], _ => none
  | (b, w) :: rest, a => if b = a then some w else Memory.lookup rest a

/-- The byte at an address (20_memory.md R57: the last value written). The bounds check is the
caller's (`memRead`, `rangeFault`). -/
def Memory.peek (m : Memory) (a : Nat) : Byte := (m.lookup a).getD (unlisted a)

/-- The memory without a listing of an address. -/
def Memory.erase (m : Memory) (a : Nat) : Memory := m.filter fun c => c.1 ≠ a

/-- The memory with a cell put in at its place by rising address. -/
def Memory.insert : Memory → Nat → Byte → Memory
  | [], a, w => [(a, w)]
  | (b, u) :: rest, a, w =>
    if a < b then (a, w) :: (b, u) :: rest else (b, u) :: Memory.insert rest a w

/-- A store of one byte (20_memory.md R52, R57), kept in canonical form: a value that an unlisted address
reads as is not listed. Outside the address space nothing is stored; the check that faults there is the
caller's. -/
def Memory.poke (m : Memory) (a : Nat) (w : Byte) : Memory :=
  if a < Config.memSize then
    if w = unlisted a then m.erase a else (m.erase a).insert a w
  else m

/-- Bytes stored one after the other at rising addresses, the first at `a` (20_memory.md R55, R60 (a)). -/
def Memory.pokeBytes : Memory → Nat → List Byte → Memory
  | m, _, [] => m
  | m, a, w :: ws => Memory.pokeBytes (m.poke a w) (a + 1) ws

/-- Whether a cell may stand in canonical memory: in the address space, not what it would read as
unlisted. -/
def cellCanonical (c : Host.Cell) : Bool :=
  decide (c.1 < Config.memSize) && decide (c.2 ≠ unlisted c.1)

/-- Canonical form: addresses strictly rising, every cell canonical. Equal memories are equal lists. -/
def Memory.wf : Memory → Bool
  | [] => true
  | [c] => cellCanonical c
  | c :: d :: rest => cellCanonical c && decide (c.1 < d.1) && Memory.wf (d :: rest)

/-! ## Bounds-checked access (20_memory.md R52, R53, R54) -/

/-- The latch contents of a memory fault at an address (60_exceptions.md R251); 17 bits hold every
address a rule can form (20_memory.md R53). -/
def memoryFault (a : Nat) (kind : AccessKind) : FaultLatch :=
  ⟨.memoryFault, kind, BitVec.ofNat 17 a⟩

/-- `MemRead(addr, 1)` (20_memory.md R52): the fault, or the byte. -/
def memRead (m : Memory) (a : Nat) (kind : AccessKind) : Except FaultLatch Byte :=
  if a ≥ Config.memSize then .error (memoryFault a kind) else .ok (m.peek a)

/-- The check an instruction makes before any of its `count` accesses at consecutive rising addresses
from `first` (20_memory.md R54): the fault, at the lowest offending address, if the last one is out of
range. -/
def rangeFault (first count : Nat) (kind : AccessKind) : Option FaultLatch :=
  if 0 < count ∧ first + count - 1 ≥ Config.memSize then
    some (memoryFault (max first Config.memSize) kind)
  else none

end Sys2Proof.Machine
end

