-- ==== Sys2Proof/Machine/Ops.lean ====
section
/-! DEFINITION. The named operations over registers, PC, stack, timers, keypad and the fault latch that
every meaning is written with. -/

namespace Sys2Proof.Machine

/-! ## General registers (spec 10_state.md R20) -/

/-- Read of `V[x]` (R20). No register is hardwired. -/
def State.reg (s : State) (x : Nibble) : Byte := s.v[x.toNat]'x.isLt

/-- Write of `V[x]` (R20). -/
def State.setReg (s : State) (x : Nibble) (b : Byte) : State :=
  { s with v := s.v.set x.toNat b x.isLt }

/-! ## Program counter (10_state.md R23, 40_cycle.md R103) -/

/-- Write of PC. -/
def State.setPc (s : State) (target : Word) : State := { s with pc := target }

/-- `PC <- PC + 2`: on to the next instruction. -/
def State.advance (s : State) : State := s.setPc (s.pc + 2)

/-- `PC <- PC + 4`: skip the next instruction. -/
def State.skip (s : State) : State := s.setPc (s.pc + 4)

/-- The end of every skip instruction: PC + 4 if the condition holds, PC + 2 otherwise
(41_flow.md R123 to R126). -/
def State.skipIf (s : State) (condition : Bool) : State := if condition then s.skip else s.advance

/-- Write of I (10_state.md R24: not validated). -/
def State.setIndex (s : State) (w : Word) : State := { s with index := w }

/-! ## The redraw flag (10_state.md R28) -/

/-- "mark redraw": `needs_redraw <- 1` (44_display.md R200, R201). -/
def State.markRedraw (s : State) : State := { s with needsRedraw := true }

/-- `REDRAW_ACK`: `needs_redraw <- 0` (44_display.md R199). -/
def State.redrawAck (s : State) : State := { s with needsRedraw := false }

/-! ## Faults (60_exceptions.md R252) -/

/-- `raise F(info)`: TAKING A FAULT. The latch is written and nothing else: no register is saved, PC
stays at the faulting instruction, control goes nowhere (R252, R253). There is no return from a fault:
only RESET clears the latch (R255, `State.doReset`). -/
def State.raise (s : State) (f : FaultLatch) : State := { s with fault := f }

/-- The latch contents of `StackOverflow` (R251). -/
def stackOverflow : FaultLatch := ⟨.stackOverflow, .none, 0⟩

/-- The latch contents of `StackUnderflow` (R251). -/
def stackUnderflow : FaultLatch := ⟨.stackUnderflow, .none, 0⟩

/-- The latch contents of `InvalidKey(k)` (R251): info is the offending register value. -/
def invalidKey (k : Byte) : FaultLatch := ⟨.invalidKey, .none, k.setWidth 17⟩

/-! ## Call stack (10_state.md R25) -/

/-- Push: `STACK[SP] <- w; SP <- SP + 1`, or nothing when the stack is full (41_flow.md R122). -/
def State.push (s : State) (w : Word) : Option State :=
  if h : s.sp.val < Config.stackDepth then
    some { s with stack := s.stack.set s.sp.val w h, sp := ⟨s.sp.val + 1, Nat.succ_lt_succ h⟩ }
  else none

/-- Pop: `SP <- SP - 1` and the entry at the new SP, or nothing when the stack is empty
(41_flow.md R120); the entry stays in place (10_state.md R25). -/
def State.pop (s : State) : Option (Word × State) :=
  if h : 0 < s.sp.val then
    have below : s.sp.val - 1 < Config.stackDepth :=
      Nat.lt_of_lt_of_le (Nat.sub_lt h Nat.one_pos) (Nat.le_of_lt_succ s.sp.isLt)
    some (s.stack[s.sp.val - 1]'below, { s with sp := ⟨s.sp.val - 1, Nat.lt_succ_of_lt below⟩ })
  else none

/-! ## Timers (60_exceptions.md R261) -/

/-- One timer down by one, floor at 0 (R261). -/
def countDown (t : Byte) : Byte := if t = 0 then 0 else t - 1

/-- `TICK`, also the timer update of a COUPLED step (R261, 40_cycle.md R104): both timers count down. -/
def State.timerUpdate (s : State) : State := { s with dt := countDown s.dt, st := countDown s.st }

/-! ## Keypad (45_keypad_timer.md R221 to R224) -/

/-- `is_pressed(k)` (R223). -/
def State.isPressed (s : State) (k : Key) : Bool := s.keys[k.toNat]'k.isLt

/-- `is_available()` (R223). -/
def State.isAvailable (s : State) : Bool := s.latch.isSome

/-- `take_released()` (R224): the latched key, the latch emptied; nothing when none is pending. -/
def State.takeReleased (s : State) : Option (Key × State) :=
  match s.latch with
  | none => none
  | some k => some (k, { s with latch := none })

/-- `KEY_PRESS(k)` (R221). -/
def State.keyPress (s : State) (k : Key) : State := { s with keys := s.keys.set k.toNat true k.isLt }

/-- `KEY_RELEASE(k)` (R222): if the key was pressed it is latched, over any earlier one. -/
def State.keyRelease (s : State) (k : Key) : State :=
  { s with
    keys := s.keys.set k.toNat false k.isLt
    latch := if s.isPressed k then some k else s.latch }

/-! ## Random source (42_alu.md R158) -/

/-- `rnd()`: the byte on the random input now, a free value (log 3). -/
def State.rnd (s : State) : Byte := Config.rnd s.rndCount

/-- The state after one random byte is consumed: the next one is another free value (log 3). -/
def State.consumeRnd (s : State) : State := { s with rndCount := s.rndCount + 1 }

/-! ## Fetch (40_cycle.md R101) -/

/-- Fetch: the bytes at PC and PC + 1, PC + 1 not wrapped, combined high byte first; or the fault. No
state changes. -/
def State.fetch (s : State) : Except FaultLatch Word :=
  match memRead s.mem s.pc.toNat .fetch with
  | .error f => .error f
  | .ok hi =>
    match memRead s.mem (s.pc.toNat + 1) .fetch with
    | .error f => .error f
    | .ok lo => .ok (wordOfBytes hi lo)

/-- The word at PC written, high byte first, as a program's load leaves it (20_memory.md R55). -/
def State.placeWord (s : State) (op : Word) : State :=
  { s with mem := s.mem.pokeBytes s.pc.toNat [highByte op, lowByte op] }

end Sys2Proof.Machine
end

