-- ==== Sys2Proof/Machine/Flags.lean ====
section
/-! DEFINITION. The values VF takes as a flag and the one order of writes all flag-writing instructions
share (spec 10_state.md R22, 42_alu.md R154). -/

namespace Sys2Proof.Machine

/-- A flag as the byte VF holds: 1 or 0 (10_state.md R22). -/
def flagByte (b : Bool) : Byte := if b then 1 else 0

/-- Carry of `8XY4`: the exact sum exceeds 255 (42_alu.md R146). -/
def carryFlag (a b : Byte) : Bool := decide (a.toNat + b.toNat > 255)

/-- No-borrow of `a - b`: `a >= b` (42_alu.md R147, R149). -/
def noBorrowFlag (a b : Byte) : Bool := decide (a.toNat ≥ b.toNat)

/-- The bit `8XY6` shifts out, bit 0 (42_alu.md R148). -/
def lowBitFlag (b : Byte) : Bool := b.getLsbD 0

/-- The bit `8XYE` shifts out, bit 7 (42_alu.md R150). -/
def highBitFlag (b : Byte) : Bool := b.getLsbD 7

/-- Collision of one sprite row: some pixel that was lit is turned off (44_display.md R201). -/
def collisionFlag (old sprite : Byte) : Bool := decide (old &&& sprite ≠ 0)

/-- VF, register 15 (10_state.md R22). -/
def vf : Nibble := 15

/-- The result to `V[x]`, then the flag to VF: the flag write is the last, so with `x = F` the result is
lost (10_state.md R22, 42_alu.md R154). -/
def State.setWithFlag (s : State) (x : Nibble) (result : Byte) (flag : Bool) : State :=
  (s.setReg x result).setReg vf (flagByte flag)

end Sys2Proof.Machine
end

