-- ==== Sys2Proof/Machine/Alu.lean ====
section
/-! DEFINITION. Register load, arithmetic, logic, shifts and random: `6XNN`, `7XNN`, `8XY0` to `8XY7`,
`8XYE`, `CXNN` (spec 42_alu.md). Arithmetic is on unsigned bytes and wraps modulo 256 (R152); every
instruction ends with PC + 2 and raises nothing. -/

namespace Sys2Proof.Machine

/-- `6XNN`, load immediate (R140). -/
def exec6XNN (x : Nibble) (nn : Byte) (s : State) : Host.Outcome State Fault Refusal :=
  .next (s.setReg x nn).advance

/-- `7XNN`, add immediate, VF not touched (R141). -/
def exec7XNN (x : Nibble) (nn : Byte) (s : State) : Host.Outcome State Fault Refusal :=
  .next (s.setReg x (s.reg x + nn)).advance

/-- `8XY0`, register copy (R142). -/
def exec8XY0 (x y : Nibble) (s : State) : Host.Outcome State Fault Refusal :=
  .next (s.setReg x (s.reg y)).advance

/-- `8XY1`, OR, VF not touched (R143). -/
def exec8XY1 (x y : Nibble) (s : State) : Host.Outcome State Fault Refusal :=
  .next (s.setReg x (s.reg x ||| s.reg y)).advance

/-- `8XY2`, AND, VF not touched (R144). -/
def exec8XY2 (x y : Nibble) (s : State) : Host.Outcome State Fault Refusal :=
  .next (s.setReg x (s.reg x &&& s.reg y)).advance

/-- `8XY3`, XOR, VF not touched (R145). -/
def exec8XY3 (x y : Nibble) (s : State) : Host.Outcome State Fault Refusal :=
  .next (s.setReg x (s.reg x ^^^ s.reg y)).advance

/-- `8XY4`, add with carry flag (R146, R154). -/
def exec8XY4 (x y : Nibble) (s : State) : Host.Outcome State Fault Refusal :=
  let a := s.reg x
  let b := s.reg y
  .next (s.setWithFlag x (a + b) (carryFlag a b)).advance

/-- `8XY5`, `Vx - Vy` with no-borrow flag (R147, R154). -/
def exec8XY5 (x y : Nibble) (s : State) : Host.Outcome State Fault Refusal :=
  let a := s.reg x
  let b := s.reg y
  .next (s.setWithFlag x (a - b) (noBorrowFlag a b)).advance

/-- `8XY6`, `Vy` shifted right into `Vx` (R148, R154). -/
def exec8XY6 (x y : Nibble) (s : State) : Host.Outcome State Fault Refusal :=
  let b := s.reg y
  .next (s.setWithFlag x (b >>> 1) (lowBitFlag b)).advance

/-- `8XY7`, `Vy - Vx` with no-borrow flag (R149, R154). -/
def exec8XY7 (x y : Nibble) (s : State) : Host.Outcome State Fault Refusal :=
  let a := s.reg x
  let b := s.reg y
  .next (s.setWithFlag x (b - a) (noBorrowFlag b a)).advance

/-- `8XYE`, `Vy` shifted left into `Vx` (R150, R154). -/
def exec8XYE (x y : Nibble) (s : State) : Host.Outcome State Fault Refusal :=
  let b := s.reg y
  .next (s.setWithFlag x (b <<< 1) (highBitFlag b)).advance

/-- `CXNN`, random under mask: one free byte is consumed, whatever `NN` is (R151, R158). Log 3. -/
def execCXNN (x : Nibble) (nn : Byte) (s : State) : Host.Outcome State Fault Refusal :=
  .next (s.consumeRnd.setReg x (s.rnd &&& nn)).advance

end Sys2Proof.Machine
end

