-- ==== Sys2Proof/Machine/Operands.lean ====
section
/-! DEFINITION. The operand forms of the instruction set (spec 30_encoding.md R84, 43_index_memory.md):
register operands are read by `State.reg`; here are the immediates widened, the addresses formed from
`I`, the glyph address, and the sprite's start and row count. -/

namespace Sys2Proof.Machine

/-- `zext_16(NNN)` (R84). -/
def immAddress (nnn : Imm12) : Word := nnn.setWidth 16

/-- `zext_16(V[x])` (R84). -/
def regAsWord (b : Byte) : Word := b.setWidth 16

/-- The address `I + k`, on unbounded integers: it does not wrap (20_memory.md R53). -/
def State.effectiveAddress (s : State) (k : Nat) : Nat := s.index.toNat + k

/-- The registers `V[0]` to `V[x]` in order, `x + 1` bytes (43_index_memory.md R174). -/
def State.regsTo (s : State) (x : Nibble) : List Byte := s.v.toList.take (x.toNat + 1)

/-- `FONT_BASE + GLYPH_STRIDE * Vx` over the whole byte, not masked (43_index_memory.md R172, D13).
Log 16. -/
def glyphAddress (digit : Byte) : Word :=
  BitVec.ofNat 16 (Config.fontBase + Config.glyphStride * digit.toNat)

/-- The key a register names, none for a value above 15 (45_keypad_timer.md R225, D14). Log 19. -/
def keyOf (b : Byte) : Option Key := if b.toNat > 15 then none else some (b.setWidth 4)

/-- The start column `V[X] mod 64` (44_display.md R201, D15). Log 17. -/
def spriteColumn (b : Byte) : BitVec 6 := b.setWidth 6

/-- The number of rows drawn: none from a start row of 32 or more, else as many of `N` as fit above
the bottom edge (44_display.md R201, D16). Log 18. -/
def spriteRows (startRow : Byte) (n : Nibble) : Nat :=
  if startRow.toNat ≥ Config.fbHeight then 0 else min n.toNat (Config.fbHeight - startRow.toNat)

/-- The three decimal digits of a byte, hundreds first (43_index_memory.md R173). -/
def bcdDigits (b : Byte) : List Byte :=
  [BitVec.ofNat 8 (b.toNat / 100), BitVec.ofNat 8 (b.toNat / 10 % 10), BitVec.ofNat 8 (b.toNat % 10)]

end Sys2Proof.Machine
end

