-- ==== Sys2Proof/Machine/Display.lean ====
section
/-! DEFINITION. The display instructions `00E0` and `DXYN` (spec 44_display.md). -/

namespace Sys2Proof.Machine

/-- `00E0`, clear the display; VF is not written (R200). -/
def exec00E0 (s : State) : Host.Outcome State Fault Refusal :=
  .next ({ s with fb := Framebuffer.blank }.markRedraw).advance

/-- One row of a draw (R201): the sprite byte `sprite` XORed onto the eight pixels from column `x0` of
row `y`, the collision so far kept. -/
def drawRow (x0 : BitVec 6) (y : BitVec 5) (sprite : Byte) (fb : Framebuffer) (hit : Bool) :
    Framebuffer × Bool :=
  let old := fb.getByte x0 y
  (fb.setByte x0 y (old ^^^ sprite), hit || collisionFlag old sprite)

/-- The row loop of a draw (R201): the rows `r` = 0, 1, ... of the sprite at `base`, `r` rising, row `r`
at screen row `y0 + r`. Answers the framebuffer and whether any lit pixel was turned off. -/
def drawSprite (m : Memory) (base : Nat) (x0 : BitVec 6) (y0 rows : Nat) (fb : Framebuffer) :
    Framebuffer × Bool :=
  (List.range rows).foldl
    (fun acc r => drawRow x0 (BitVec.ofNat 5 (y0 + r)) (m.peek (base + r)) acc.1 acc.2) (fb, false)

/-- `DXYN`, draw a sprite (R201): start column modulo 64, rows clipped at the bottom, every sprite
address checked first, the collision flag written to VF last. Logs 17, 18. -/
def execDXYN (x y n : Nibble) (s : State) : Host.Outcome State Fault Refusal :=
  let x0 := spriteColumn (s.reg x)
  let y0 := s.reg y
  let rows := spriteRows y0 n
  match rangeFault (s.effectiveAddress 0) rows .dataRead with
  | some f => .next (s.raise f)
  | none =>
    let drawn := drawSprite s.mem (s.effectiveAddress 0) x0 y0.toNat rows s.fb
    .next (({ s with fb := drawn.1 }.setReg vf (flagByte drawn.2)).markRedraw).advance

end Sys2Proof.Machine
end

