-- ==== Sys2Proof/Machine/Flow.lean ====
section
/-! DEFINITION. Control transfer: `00EE`, `1NNN`, `2NNN`, `3XNN`, `4XNN`, `5XY0`, `9XY0`, `BNNN`
(spec 41_flow.md). PC read on the right is the instruction's own address (40_cycle.md R103). -/

namespace Sys2Proof.Machine

/-- `00EE`, return (R120): `StackUnderflow` on an empty stack, else PC is the popped entry, unchecked. -/
def exec00EE (s : State) : Host.Outcome State Fault Refusal :=
  match s.pop with
  | none => .next (s.raise stackUnderflow)
  | some (target, s') => .next (s'.setPc target)

/-- `1NNN`, jump (R121). -/
def exec1NNN (nnn : Imm12) (s : State) : Host.Outcome State Fault Refusal :=
  .next (s.setPc (immAddress nnn))

/-- `2NNN`, call (R122): `StackOverflow` on a full stack, else the return address `PC + 2` is pushed. -/
def exec2NNN (nnn : Imm12) (s : State) : Host.Outcome State Fault Refusal :=
  match s.push (s.pc + 2) with
  | none => .next (s.raise stackOverflow)
  | some s' => .next (s'.setPc (immAddress nnn))

/-- `3XNN`, skip if equal to the immediate (R123). -/
def exec3XNN (x : Nibble) (nn : Byte) (s : State) : Host.Outcome State Fault Refusal :=
  .next (s.skipIf (s.reg x == nn))

/-- `4XNN`, skip if different from the immediate (R124). -/
def exec4XNN (x : Nibble) (nn : Byte) (s : State) : Host.Outcome State Fault Refusal :=
  .next (s.skipIf (s.reg x != nn))

/-- `5XY0`, skip if registers equal (R125). -/
def exec5XY0 (x y : Nibble) (s : State) : Host.Outcome State Fault Refusal :=
  .next (s.skipIf (s.reg x == s.reg y))

/-- `9XY0`, skip if registers differ (R126). -/
def exec9XY0 (x y : Nibble) (s : State) : Host.Outcome State Fault Refusal :=
  .next (s.skipIf (s.reg x != s.reg y))

/-- `BNNN`, jump to `NNN + V0`, neither wrapped nor masked to 12 bits (R127). -/
def execBNNN (nnn : Imm12) (s : State) : Host.Outcome State Fault Refusal :=
  .next (s.setPc (immAddress nnn + regAsWord (s.reg 0)))

end Sys2Proof.Machine
end

