-- ==== Sys2Proof/Machine/IndexMemory.lean ====
section
/-! DEFINITION. Index register and memory: `ANNN`, `FX1E`, `FX29`, `FX33`, `FX55`, `FX65`
(spec 43_index_memory.md). All addresses are checked before any access; a fault changes nothing but the
latch (R176, 20_memory.md R54). -/

namespace Sys2Proof.Machine

/-- `ANNN`, load index (R170). -/
def execANNN (nnn : Imm12) (s : State) : Host.Outcome State Fault Refusal :=
  .next (s.setIndex (immAddress nnn)).advance

/-- `FX1E`, add to index modulo 65536, VF not touched (R171). Log 14. -/
def execFX1E (x : Nibble) (s : State) : Host.Outcome State Fault Refusal :=
  .next (s.setIndex (s.index + regAsWord (s.reg x))).advance

/-- `FX29`, index of a glyph (R172). Log 16. -/
def execFX29 (x : Nibble) (s : State) : Host.Outcome State Fault Refusal :=
  .next (s.setIndex (glyphAddress (s.reg x))).advance

/-- The bytes of a store that goes through `I`, all addresses checked first (R173, R174,
20_memory.md R54): the fault taken, or the bytes stored and PC + 2. `I` is unchanged. -/
def storeThroughIndex (bytes : List Byte) (s : State) : State :=
  match rangeFault (s.effectiveAddress 0) bytes.length .dataWrite with
  | some f => s.raise f
  | none => ({ s with mem := s.mem.pokeBytes (s.effectiveAddress 0) bytes }).advance

/-- `FX33`, store the decimal digits (R173). -/
def execFX33 (x : Nibble) (s : State) : Host.Outcome State Fault Refusal :=
  .next (storeThroughIndex (bcdDigits (s.reg x)) s)

/-- `FX55`, store `V0` to `Vx` (R174). Log 15. -/
def execFX55 (x : Nibble) (s : State) : Host.Outcome State Fault Refusal :=
  .next (storeThroughIndex (s.regsTo x) s)

/-- The registers after `V[0]` to `V[x]` are loaded from `I` up, rising (R175). -/
def State.loadRegs (s : State) (x : Nibble) : State :=
  (List.range (x.toNat + 1)).foldl
    (fun t k => t.setReg (BitVec.ofNat 4 k) (s.mem.peek (s.effectiveAddress k))) s

/-- `FX65`, load `V0` to `Vx` (R175). Log 15. -/
def execFX65 (x : Nibble) (s : State) : Host.Outcome State Fault Refusal :=
  match rangeFault (s.effectiveAddress 0) (x.toNat + 1) .dataRead with
  | some f => .next (s.raise f)
  | none => .next (s.loadRegs x).advance

end Sys2Proof.Machine
end

