-- ==== Sys2Proof/Machine/KeypadTimer.lean ====
section
/-! DEFINITION. The keypad and timer instructions `EX9E`, `EXA1`, `FX0A`, `FX07`, `FX15`, `FX18`
(spec 45_keypad_timer.md). -/

namespace Sys2Proof.Machine

/-- The skip on a key's level shared by `EX9E` and `EXA1` (R225, R226): `InvalidKey` for a register value
above 15, else skip if the key's state is the one asked for. Log 19. -/
def skipOnKey (x : Nibble) (pressed : Bool) (s : State) : State :=
  match keyOf (s.reg x) with
  | none => s.raise (invalidKey (s.reg x))
  | some k => s.skipIf (s.isPressed k == pressed)

/-- `EX9E`, skip if the key is pressed (R225). -/
def execEX9E (x : Nibble) (s : State) : Host.Outcome State Fault Refusal :=
  .next (skipOnKey x true s)

/-- `EXA1`, skip if the key is not pressed (R226). -/
def execEXA1 (x : Nibble) (s : State) : Host.Outcome State Fault Refusal :=
  .next (skipOnKey x false s)

/-- `FX07`, read the delay timer (R228). -/
def execFX07 (x : Nibble) (s : State) : Host.Outcome State Fault Refusal :=
  .next (s.setReg x s.dt).advance

/-- `FX0A`, wait for a key (R227): with the latch empty the core is marked as waiting and PC stays; else
the latched key is taken, the mark cleared and PC advanced. The latch is not flushed when the wait
begins (R231). Log 20. -/
def execFX0A (x : Nibble) (s : State) : Host.Outcome State Fault Refusal :=
  match s.takeReleased with
  | none => .next { s with haltedForKey := true }
  | some (k, s') => .next ({ s'.setReg x (k.setWidth 8) with haltedForKey := false }).advance

/-- `FX15`, set the delay timer (R229). -/
def execFX15 (x : Nibble) (s : State) : Host.Outcome State Fault Refusal :=
  .next ({ s with dt := s.reg x }).advance

/-- `FX18`, set the sound timer (R230). -/
def execFX18 (x : Nibble) (s : State) : Host.Outcome State Fault Refusal :=
  .next ({ s with st := s.reg x }).advance

end Sys2Proof.Machine
end

