-- ==== Sys2Proof/Machine/Cycle.lean ====
section
/-! DEFINITION. One STEP event: fetch, decode, execute, and in COUPLED mode the timer update
(spec 40_cycle.md R100 to R107). -/

namespace Sys2Proof.Machine

/-- The `UnknownOpcode` event made visible (60_exceptions.md R258). Log 7. -/
def State.report (s : State) (e : UnknownOpcode) : State := { s with event := some e }

/-- A STEP has been taken since RESET (70_reset_and_hazards.md R294). Log 5. -/
def State.markStepped (s : State) : State := { s with stepped := true }

/-- The unknown opcode (R105): a no-op that makes the event `UnknownOpcode(op, PC)` visible and advances
PC by 2. Log 13. -/
def execUnknown (op : Word) (s : State) : State :=
  (s.report ⟨op, s.pc⟩).advance

/-- Execute of what decode answered (R103, R105). -/
def execDecoded (d : Decoded) (s : State) : Host.Outcome State Fault Refusal :=
  match d with
  | .instr i => exec i s
  | .unknown op => .next (execUnknown op s)

/-- The end of a STEP whose execute left `s`: the timer update in COUPLED mode, unless a fault was raised
(R100, R104). Log 23. -/
def State.endOfStep (s : State) : State :=
  if s.fault.code = .none ∧ s.timerMode = .coupled then s.timerUpdate else s

/-- Fetch, decode, execute, timer update (R100): the cycle of a core with no fault latched. -/
def cycle (s : State) : Host.Outcome State Fault Refusal :=
  match s.fetch with
  | .error f => .next (s.raise f)
  | .ok op =>
    match execDecoded (decode op) s with
    | .next t => .next t.endOfStep
    | .fault r => .fault r
    | .refused r => .refused r

/-- The STEP event (R100, R106): nothing at all while a fault is latched, else one cycle; the host may
load no program afterwards (70_reset_and_hazards.md R294, log 5). -/
def stepEvent (s : State) : Host.Outcome State Fault Refusal :=
  if s.fault.code ≠ .none then .next s else cycle s.markStepped

end Sys2Proof.Machine
end

