-- ==== Sys2Proof/WellFormed.lean ====
section
/-! DEFINITION. What makes an input well formed. An instruction needs no check: each operand field has
exactly the width of its field of the opcode (spec 30_encoding.md R82), every value of that width is
admitted (R84), and no form is forbidden (42_alu.md R157), so every `Instr` is well formed by its type.
A program, the bytes of a `LOAD`, has one check, its length (70_reset_and_hazards.md R294, R295). -/

namespace Sys2Proof

/-- A program the core may be given: 0 to 3584 bytes (70_reset_and_hazards.md R294); nothing else is
asked of it (30_encoding.md R92: no header, any length parity). -/
def programWellFormed (bytes : List Byte) : Bool :=
  decide (bytes.length ≤ Config.progMax)

end Sys2Proof
end

