-- ==== Sys2Proof/Machine/HostEvents.lean ====
section
/-! DEFINITION. The host's events and its read of memory (spec 00_scope.md R6, 60_exceptions.md R269,
70_reset_and_hazards.md R291, R294). -/

namespace Sys2Proof.Machine

/-- `RESET` (70_reset_and_hazards.md R291): every piece of state but memory at its reset value, the font
copied back into memory, the rest of memory as it was. What is no state of the core stays: the timer
mode, the random source's position and the host's further events. Logs 10, 32. -/
def State.doReset (s : State) : State :=
  { State.reset with
    mem := s.mem.pokeBytes Config.fontBase fontTable
    timerMode := s.timerMode
    rndCount := s.rndCount
    hostEvents := s.hostEvents }

/-- `LOAD(bytes)` (70_reset_and_hazards.md R294): the bytes copied unchanged to `0x200` upward. -/
def State.load (s : State) (bytes : List Byte) : State :=
  { s with mem := s.mem.pokeBytes Config.progBase bytes }

/-- The event LOAD with the conditions under which it is defined (R294, R295): at most 3584 bytes, no
STEP since the last RESET; otherwise the model has no move (93 U17). Logs 5, 6. -/
def loadEvent (bytes : List Byte) (s : State) : Host.Outcome State Fault Refusal :=
  if ¬ programWellFormed bytes then .refused .programTooLarge
  else if s.stepped then .refused .loadAfterStep
  else .next (s.load bytes)

/-- One host event (00_scope.md R6), each atomic. -/
def handleEvent (e : HostEvent) (s : State) : Host.Outcome State Fault Refusal :=
  match e with
  | .reset => .next s.doReset
  | .load bytes => loadEvent bytes s
  | .step => stepEvent s
  | .tick => .next s.timerUpdate
  | .keyPress k => .next (s.keyPress k)
  | .keyRelease k => .next (s.keyRelease k)
  | .redrawAck => .next s.redrawAck

/-- The event the host raises next: the first it has announced, or STEP. Log 4. -/
def State.nextEvent (s : State) : HostEvent := s.hostEvents.headD .step

/-- The state as the next event finds it: that event no longer announced, and the `UnknownOpcode` event
of the one before no longer visible (60_exceptions.md R258). Log 7. -/
def State.beginEvent (s : State) : State :=
  { s with hostEvents := s.hostEvents.tail, event := none }

/-- The host's read of a memory cell between events (10_state.md R37): a 12-bit address, no change. -/
def State.hostReadMem (s : State) (a : BitVec 12) : Byte := s.mem.peek a.toNat

/-- The state made ready for its next event to be a STEP that fetches `op`: the word stands at PC, no
other event is announced and no fault is latched (log 25). -/
def State.readyWord (s : State) (op : Word) : State :=
  { s.placeWord op with hostEvents := [], fault := FaultLatch.clear }

end Sys2Proof.Machine
end

