-- ==== Sys2Proof/Machine/Step.lean ====
section
/-! DEFINITION. One step of the machine is one event of the host (spec 00_scope.md R6): the next one it
has announced, or STEP. -/

namespace Sys2Proof.Machine

/-- One event, to completion. With no event announced this is the STEP of 40_cycle.md R100. -/
def step (s : State) : Host.Outcome State Fault Refusal :=
  handleEvent s.nextEvent s.beginEvent

/-- The state with the table word `w` of `nbits` bits stored where the next STEP fetches, and that STEP
the next event (log 25). -/
def State.withFetchWord (s : State) (nbits w : Nat) : State :=
  s.readyWord (BitVec.ofNat 16 (w % 2 ^ nbits))

end Sys2Proof.Machine
end

