-- ==== Sys2Proof/Safety.lean ====
section
/-! DEFINITION. The terms claims are stated in: a running core, what a step left unchanged, the tabled
faults, what a sprite covers, and the invariants of the machine. -/

namespace Sys2Proof.Safety

open Sys2Proof.Machine

/-- No fault is latched: the part of a claim about a good run that spec 60_exceptions.md R256 asks for. -/
def Running (s : State) : Prop := s.fault.code = .none

/-! ## Frames -/

/-- What a transition may have changed besides PC: the registers and memory addresses it names, and each
other piece of state it marks. -/
structure Writes where
  regs : List Nibble := []
  mem : List Nat := []
  index : Bool := false
  stack : Bool := false
  dt : Bool := false
  st : Bool := false
  halted : Bool := false
  redraw : Bool := false
  fault : Bool := false
  fb : Bool := false
  keys : Bool := false
  latch : Bool := false
  rnd : Bool := false
  event : Bool := false
  host : Bool := false
  deriving DecidableEq, Repr

/-- Everything `w` does not name is in `t` as it was in `s`: each register, each byte of memory, `I`, the
stack with its pointer, the timers, the flags, the fault latch, the framebuffer, the keys, the latch,
and the model's own fields. Says nothing of PC. -/
def Unchanged (w : Writes) (s t : State) : Prop :=
  (∀ j, j ∉ w.regs → t.reg j = s.reg j) ∧
  (∀ a, a ∉ w.mem → t.mem.peek a = s.mem.peek a) ∧
  (w.index = false → t.index = s.index) ∧
  (w.stack = false → t.stack = s.stack ∧ t.sp = s.sp) ∧
  (w.dt = false → t.dt = s.dt) ∧
  (w.st = false → t.st = s.st) ∧
  (w.halted = false → t.haltedForKey = s.haltedForKey) ∧
  (w.redraw = false → t.needsRedraw = s.needsRedraw) ∧
  (w.fault = false → t.fault = s.fault) ∧
  (w.fb = false → t.fb = s.fb) ∧
  (w.keys = false → t.keys = s.keys) ∧
  (w.latch = false → t.latch = s.latch) ∧
  (w.rnd = false → t.rndCount = s.rndCount) ∧
  (w.event = false → t.event = s.event) ∧
  (w.host = false → t.stepped = s.stepped ∧ t.hostEvents = s.hostEvents) ∧
  t.timerMode = s.timerMode

/-- The registers `V[0]` to `V[x]`, by number. -/
def regsUpTo (x : Nibble) : List Nibble := (List.range (x.toNat + 1)).map (BitVec.ofNat 4)

/-- The addresses `first` to `first + count - 1`. -/
def addresses (first count : Nat) : List Nat := List.range' first count

/-! ## Reset values (10_state.md R34) -/

/-- The reset values of everything but memory and the model's own fields. -/
def HasResetValues (s : State) : Prop :=
  (∀ x, s.reg x = 0) ∧ s.pc.toNat = 0x200 ∧ s.index = 0 ∧
  (∀ j (h : j < 16), s.stack[j] = 0) ∧ s.sp.val = 0 ∧ s.dt = 0 ∧ s.st = 0 ∧
  s.haltedForKey = false ∧ s.needsRedraw = false ∧
  s.fault.code = .none ∧ s.fault.access = .none ∧ s.fault.info = 0 ∧
  (∀ x y, s.fb.pixel x y = false) ∧ (∀ k, s.isPressed k = false) ∧ s.latch = none

/-! ## Faults (60_exceptions.md R251) -/

/-- The latch contents of a memory fault of an access through `I` to `count` bytes, if it faults. -/
def indexFault (s : State) (count : Nat) (kind : AccessKind) : Option FaultLatch :=
  if 0 < count ∧ 4096 ≤ s.index.toNat + count - 1 then
    some ⟨.memoryFault, kind, BitVec.ofNat 17 (max s.index.toNat 4096)⟩
  else none

/-- The number of sprite rows on the screen, from the start row and `N` (44_display.md R201). -/
def rowsDrawn (startRow n : Nat) : Nat := if startRow ≥ 32 then 0 else min n (32 - startRow)

/-- The fault the table of R251 gives an instruction in a state, none where it gives none. -/
def tabledFault (i : Instr) (s : State) : Option FaultLatch :=
  match i with
  | .op2NNN _ => if s.sp.val = 16 then some ⟨.stackOverflow, .none, 0⟩ else none
  | .op00EE => if s.sp.val = 0 then some ⟨.stackUnderflow, .none, 0⟩ else none
  | .opEX9E x | .opEXA1 x =>
    if 15 < (s.reg x).toNat then some ⟨.invalidKey, .none, BitVec.ofNat 17 (s.reg x).toNat⟩ else none
  | .opFX33 _ => indexFault s 3 .dataWrite
  | .opFX55 x => indexFault s (x.toNat + 1) .dataWrite
  | .opFX65 x => indexFault s (x.toNat + 1) .dataRead
  | .opDXYN _ y n => indexFault s (rowsDrawn (s.reg y).toNat n.toNat) .dataRead
  | _ => none

/-! ## Sprites (44_display.md R201) -/

/-- The sprite of `DXYN` in a state has a 1 bit on the pixel at `col`, `row`: the row is one of the `N`
from row `V[Y]` down (a pixel exists in rows 0 to 31 only), the column one of the eight from
`V[X] mod 64` around the row, and the row's byte has its bit set, bit 7 leftmost. -/
def spriteBit (s : State) (x y n : Nibble) (col : BitVec 6) (row : BitVec 5) : Bool :=
  let c := (col.toNat + 64 - (s.reg x).toNat % 64) % 64
  let r := row.toNat - (s.reg y).toNat
  decide ((s.reg y).toNat ≤ row.toNat) && decide (r < n.toNat) && decide (c < 8) &&
    (s.mem.peek (s.index.toNat + r)).getLsbD (7 - c)

/-- Every sprite byte of a row on the screen is in memory, so `DXYN` draws (R201). -/
def SpriteInMemory (s : State) (y n : Nibble) : Prop :=
  rowsDrawn (s.reg y).toNat n.toNat = 0 ∨
    s.index.toNat + rowsDrawn (s.reg y).toNat n.toNat ≤ 4096

/-! ## Runs of instructions -/

/-- Instructions executed one after the other, stopping at the first that does not answer a next state. -/
def execAll : List Instr → State → Host.Outcome State Fault Refusal
  | [], s => .next s
  | i :: is, s =>
    match exec i s with
    | .next t => execAll is t
    | .fault r => .fault r
    | .refused r => .refused r

/-- The instruction neither calls nor returns. -/
def KeepsStack : Instr → Prop
  | .op2NNN _ => False
  | .op00EE => False
  | _ => True

/-! ## Invariants -/

/-- Memory is in canonical form. -/
def MemoryCanonical (s : State) : Prop := s.mem.wf = true

/-- The stack holds return addresses of at most 4096 and PC is at most `0x10FE`
(10_state.md R23, 41_flow.md R120, R122, R127). -/
def PcAndStackBounded (s : State) : Prop :=
  s.pc.toNat ≤ 0x10FE ∧ ∀ j (h : j < 16), s.stack[j].toNat ≤ 4096

/-- The fault latch holds one of the rows of 60_exceptions.md R251, and no unknown opcode is reported
beside a fault (R253). -/
def LatchLegal (s : State) : Prop :=
  match s.fault.code with
  | .none => s.fault.access = .none ∧ s.fault.info = 0
  | .memoryFault =>
    s.fault.access ≠ .none ∧ 4096 ≤ s.fault.info.toNat ∧ s.fault.info.toNat < 65536 ∧ s.event = none
  | .stackOverflow => s.fault.access = .none ∧ s.fault.info = 0 ∧ s.event = none
  | .stackUnderflow => s.fault.access = .none ∧ s.fault.info = 0 ∧ s.event = none
  | .invalidKey =>
    s.fault.access = .none ∧ 15 < s.fault.info.toNat ∧ s.fault.info.toNat ≤ 255 ∧ s.event = none

/-- While `halted_for_key` is 1, PC is at an `FX0A` (10_state.md R27, 40_cycle.md R107) and a STEP has been
taken since RESET. -/
def WaitsAtKey (s : State) : Prop :=
  s.haltedForKey = true →
    s.stepped = true ∧ s.pc.toNat ≤ 4094 ∧
    ∃ x, decode (wordOfBytes (s.mem.peek s.pc.toNat) (s.mem.peek (s.pc.toNat + 1))) =
      .instr (.opFX0A x)

end Sys2Proof.Safety
end

