-- ==== Sys2Proof/Certificates/Slice0/Obligations.lean ====
section
/-! DEFINITION. The statements for the provers, from the spec's numbered rules. "Derived" ones rest on a
decision or a derivation the spec marks as its own, or on a choice of the model's; the docstring names it. -/

open Sys2Proof Sys2Proof.Machine Sys2Proof.Safety

/-! ## Reset, load and the host's events -/

/-- The machine after power-on and RESET (10_state.md section 9). Derived: the values of I, the
framebuffer, the keys and the latch are the spec's decision D19, the fault latch's D3, the font bytes its
default D20 (logs 1, 10, 11). -/
def Obligations.ResetStateHasTabledValues : Prop :=
  HasResetValues State.reset ∧
  ∀ a, a < 4096 → State.reset.mem.peek a =
    if 0x050 ≤ a ∧ a ≤ 0x09F then fontTable.getD (a - 0x050) 0 else 0

/-- RESET from any state (70_reset_and_hazards.md section 1). Derived: decision D19; that the model's own
fields keep their values is log 32. -/
def Obligations.ResetEventRestoresTabledValues : Prop :=
  ∀ s, ∃ t, handleEvent .reset s = .next t ∧ HasResetValues t ∧
    (∀ i, i < 80 → t.mem.peek (0x050 + i) = fontTable.getD i 0) ∧
    (∀ a, a < 0x050 ∨ 0x09F < a → t.mem.peek a = s.mem.peek a) ∧
    t.stepped = false ∧ t.timerMode = s.timerMode ∧ t.rndCount = s.rndCount ∧
    t.hostEvents = s.hostEvents

/-- `LOAD` between RESET and the first STEP copies the bytes to `0x200` upward and changes nothing else
(70_reset_and_hazards.md section 2). Derived: the spec says only when `LOAD` is legal; that none is taken
after the first STEP is the model's choice (log 5, within 93_implementation_defined.md U17). -/
def Obligations.LoadCopiesProgramBytes : Prop :=
  (∀ (s : State) (bytes : List Byte), s.stepped = true → ∀ t, handleEvent (.load bytes) s ≠ .next t) ∧
  ∀ (s : State) (bytes : List Byte), bytes.length ≤ 3584 → s.stepped = false →
    ∃ t, handleEvent (.load bytes) s = .next t ∧
      (∀ k (h : k < bytes.length), t.mem.peek (0x200 + k) = bytes[k]) ∧ t.pc = s.pc ∧
      Unchanged { mem := addresses 0x200 bytes.length } s t

/-- A longer `LOAD`, or one after the first STEP, is refused by name (93_implementation_defined.md U17;
logs 5, 6), and a STEP of a running core ends the time in which LOAD is allowed. -/
def Obligations.IllegalLoadIsRefused : Prop :=
  (∀ (s : State) (bytes : List Byte), 3584 < bytes.length →
    handleEvent (.load bytes) s = .refused .programTooLarge) ∧
  (∀ (s : State) (bytes : List Byte), bytes.length ≤ 3584 → s.stepped = true →
    handleEvent (.load bytes) s = .refused .loadAfterStep) ∧
  (∀ s t : State, Running s → handleEvent .step s = .next t → t.stepped = true)

/-- R261: `TICK` counts both timers down by one, floor at 0, and changes nothing else; of the instructions
only `FX15` and `FX18` write the timers, of the events only `TICK`, `RESET` and a STEP that is COUPLED or
runs one of those two. -/
def Obligations.TickCountsBothTimersDown : Prop :=
  (∀ s, ∃ t, handleEvent .tick s = .next t ∧
    (t.dt.toNat = if 0 < s.dt.toNat then s.dt.toNat - 1 else 0) ∧
    (t.st.toNat = if 0 < s.st.toNat then s.st.toNat - 1 else 0) ∧
    t.pc = s.pc ∧ Unchanged { dt := true, st := true } s t) ∧
  (∀ (i : Instr) (s t : State), exec i s = .next t →
    (t.dt = s.dt ∨ ∃ x, i = .opFX15 x) ∧ (t.st = s.st ∨ ∃ x, i = .opFX18 x)) ∧
  (∀ (e : HostEvent) (s t : State), handleEvent e s = .next t →
    e = .tick ∨ e = .reset ∨ (t.dt = s.dt ∧ t.st = s.st) ∨
    (e = .step ∧ (s.timerMode = .coupled ∨
      ∃ x, s.fetch = .ok (encode (.opFX15 x)) ∨ s.fetch = .ok (encode (.opFX18 x)))))

/-- R222: a release puts the key into the latch exactly if it was pressed, over any unread value, and
leaves it released; nothing else changes. -/
def Obligations.KeyReleaseLatchesPressedKey : Prop :=
  ∀ (s : State) (k : Key), ∃ t, handleEvent (.keyRelease k) s = .next t ∧
    (∀ j, t.isPressed j = (s.isPressed j && decide (j ≠ k))) ∧
    (s.isPressed k = true → t.latch = some k) ∧ (s.isPressed k = false → t.latch = s.latch) ∧
    t.pc = s.pc ∧ Unchanged { keys := true, latch := true } s t

/-- A press marks the key pressed and touches neither the latch nor another key (45_keypad_timer.md
section 1). Derived: that a press carries a key of 0 to 15 only is the spec's decision D1. -/
def Obligations.KeyPressMarksKeyPressed : Prop :=
  ∀ (s : State) (k : Key), ∃ t, handleEvent (.keyPress k) s = .next t ∧
    (∀ j, t.isPressed j = (s.isPressed j || decide (j = k))) ∧
    t.pc = s.pc ∧ Unchanged { keys := true } s t

/-- R199: `REDRAW_ACK` clears `needs_redraw` and nothing else. -/
def Obligations.RedrawAckClearsTheFlag : Prop :=
  ∀ s, ∃ t, handleEvent .redrawAck s = .next t ∧ t.needsRedraw = false ∧ t.pc = s.pc ∧
    Unchanged { redraw := true } s t

/-- A step of the model is the next event the host has announced, or STEP (the model's choice, log 4),
with the unknown-opcode report of the event before gone (log 7). -/
def Obligations.StepTakesTheNextHostEvent : Prop :=
  (∀ (s : State) (e : HostEvent) (es : List HostEvent), s.hostEvents = e :: es →
    step s = handleEvent e { s with hostEvents := es, event := none }) ∧
  (∀ s : State, s.hostEvents = [] → step s = handleEvent .step { s with event := none })

/-! ## Fetch, decode, encode -/

/-- R101: fetch combines the bytes at PC and PC + 1 high byte first, succeeds iff PC <= 4094, and else
answers a fetch MemoryFault at 4096 for PC = 4095, at PC above. -/
def Obligations.FetchReadsTwoBytesOrFaults : Prop :=
  ∀ s : State,
    (s.pc.toNat ≤ 4094 → ∃ op, s.fetch = .ok op ∧
      op.toNat = (s.mem.peek s.pc.toNat).toNat * 256 + (s.mem.peek (s.pc.toNat + 1)).toNat) ∧
    (4095 ≤ s.pc.toNat → ∃ f, s.fetch = .error f ∧ f.code = .memoryFault ∧ f.access = .fetch ∧
      f.info.toNat = if s.pc.toNat = 4095 then 4096 else s.pc.toNat)

/-- R85: the table has 34 rows, an opcode is the instruction of a row iff `(op AND mask) = match`, and no
opcode satisfies two rows. -/
def Obligations.DecodeAgreesWithOpcodeTable : Prop :=
  opcodeTable.length = 34 ∧
  (∀ (op : Word) (r : OpcodeRow), r ∈ opcodeTable →
    (op &&& r.mask = r.pattern ↔ ∃ i, decode op = .instr i ∧ rowNumber i = r.number)) ∧
  (∀ (op : Word) (r r' : OpcodeRow), r ∈ opcodeTable → r' ∈ opcodeTable →
    op &&& r.mask = r.pattern → op &&& r'.mask = r'.pattern → r = r')

/-- Decoding what the encoder writes gives the instruction back, every operand at every value
(30_encoding.md sections 1 and 3). -/
def Obligations.DecodeOfEncodeIsTheInstruction : Prop :=
  ∀ i : Instr, decode (encode i) = .instr i

/-- Encoding what the decoder reads gives the word back: no bit of an instruction's word is dropped
(30_encoding.md sections 1 and 3). -/
def Obligations.EncodeOfDecodeIsTheWord : Prop :=
  ∀ (op : Word) (i : Instr), decode op = .instr i → encode i = op

/-- The unknown words, family by family (30_encoding.md section 4; derived there from the table). -/
def Obligations.UnknownWordsAreThoseListed : Prop :=
  ∀ op : Word, decode op = .unknown op ↔
    (op.toNat / 4096 = 0x0 ∧ op ≠ 0x00E0 ∧ op ≠ 0x00EE) ∨
    (op.toNat / 4096 = 0x5 ∧ op.toNat % 16 ≠ 0) ∨
    (op.toNat / 4096 = 0x8 ∧ op.toNat % 16 ∈ [0x8, 0x9, 0xA, 0xB, 0xC, 0xD, 0xF]) ∨
    (op.toNat / 4096 = 0x9 ∧ op.toNat % 16 ≠ 0) ∨
    (op.toNat / 4096 = 0xE ∧ op.toNat % 256 ∉ [0x9E, 0xA1]) ∨
    (op.toNat / 4096 = 0xF ∧
      op.toNat % 256 ∉ [0x07, 0x0A, 0x15, 0x18, 0x1E, 0x29, 0x33, 0x55, 0x65])

/-- A few words written out from their encodings (95_test_vectors.md V-E1 to V-E6). -/
def Obligations.SpecWordsDecodeAsTheSpecSays : Prop :=
  decode 0x1234 = .instr (.op1NNN 0x234) ∧ decode 0xD123 = .instr (.opDXYN 1 2 3) ∧
  decode 0x8AB4 = .instr (.op8XY4 0xA 0xB) ∧ decode 0x3CFE = .instr (.op3XNN 0xC 0xFE) ∧
  decode 0xFE65 = .instr (.opFX65 0xE) ∧ decode 0x00E0 = .instr .op00E0 ∧
  decode 0x00EE = .instr .op00EE ∧ decode 0x01E0 = .unknown 0x01E0 ∧
  decode 0x0FEE = .unknown 0x0FEE

/-! ## The STEP event -/

/-- A STEP of a running core whose bytes at PC decode to an instruction is `exec` of that instruction,
followed by the timer update in COUPLED mode unless a fault was raised (40_cycle.md section 1; the
update's place is decision D30, `stepped` and the event queue the model's, logs 4, 5, 7). -/
def Obligations.StepRunsTheDecodedInstruction : Prop :=
  ∀ (s : State) (i : Instr), s.nextEvent = .step → Running s → s.pc.toNat ≤ 4094 →
    decode (wordOfBytes (s.mem.peek s.pc.toNat) (s.mem.peek (s.pc.toNat + 1))) = .instr i →
    ∃ t, exec i { s with stepped := true, hostEvents := s.hostEvents.tail, event := none } = .next t ∧
      step s = .next (if t.fault.code = .none ∧ t.timerMode = .coupled then t.timerUpdate else t)

/-- A STEP of a running core on an unknown word: PC + 2, the event with the word and its address, in
COUPLED mode the timer update, nothing else (40_cycle.md section 2). Derived: decisions D7, D30, D32. -/
def Obligations.UnknownWordAdvancesAndReports : Prop :=
  ∀ (s : State) (op : Word), s.nextEvent = .step → Running s → s.pc.toNat ≤ 4094 →
    op = wordOfBytes (s.mem.peek s.pc.toNat) (s.mem.peek (s.pc.toNat + 1)) →
    decode op = .unknown op →
    ∃ t, step s = .next t ∧ t.pc = s.pc + 2 ∧ t.event = some ⟨op, s.pc⟩ ∧ t.stepped = true ∧
      t.hostEvents = s.hostEvents.tail ∧
      (s.timerMode = .separate → t.dt = s.dt ∧ t.st = s.st) ∧
      (s.timerMode = .coupled →
        t.dt.toNat = s.dt.toNat - 1 ∧ t.st.toNat = s.st.toNat - 1) ∧
      Unchanged { dt := true, st := true, event := true, host := true } s t

/-- While a fault is latched a STEP does nothing and reports no opcode (40_cycle.md section 3). Derived:
decisions D3, D27; only the model's own event fields move (logs 4, 7). -/
def Obligations.FaultedCoreStepDoesNothing : Prop :=
  ∀ s : State, s.nextEvent = .step → ¬ Running s →
    ∃ t, step s = .next t ∧ t.pc = s.pc ∧ t.event = none ∧ t.hostEvents = s.hostEvents.tail ∧
      t.stepped = s.stepped ∧ Unchanged { event := true, host := true } s t

/-- A STEP with PC at 4095 or above latches a fetch fault at the lowest offending address and changes
nothing else (60_exceptions.md section 2). Derived: the latch is decision D3, D4. -/
def Obligations.FetchFaultIsLatched : Prop :=
  ∀ s : State, s.nextEvent = .step → Running s → 4095 ≤ s.pc.toNat →
    ∃ t, step s = .next t ∧ t.fault.code = .memoryFault ∧ t.fault.access = .fetch ∧
      t.fault.info.toNat = max s.pc.toNat 4096 ∧ t.pc = s.pc ∧
      Unchanged { fault := true, event := true, host := true } s t

/-- In COUPLED mode a STEP whose instruction raises no fault and sets no timer counts both timers down
once, after the instruction (40_cycle.md section 1). Derived: decisions D2, D30. -/
def Obligations.CoupledStepCountsTimersDown : Prop :=
  ∀ (s : State) (i : Instr), s.nextEvent = .step → Running s → s.timerMode = .coupled →
    s.pc.toNat ≤ 4094 →
    decode (wordOfBytes (s.mem.peek s.pc.toNat) (s.mem.peek (s.pc.toNat + 1))) = .instr i →
    tabledFault i s = none → (∀ x, i ≠ .opFX15 x ∧ i ≠ .opFX18 x) →
    ∃ t, step s = .next t ∧ t.dt.toNat = s.dt.toNat - 1 ∧ t.st.toNat = s.st.toNat - 1

/-- In SEPARATE mode a STEP touches the timers through `FX15` and `FX18` only (40_cycle.md section 1).
Derived: decisions D2, D30. -/
def Obligations.SeparateStepLeavesTimers : Prop :=
  ∀ s t : State, s.nextEvent = .step → s.timerMode = .separate → step s = .next t →
    (t.dt = s.dt ∨ ∃ x, s.fetch = .ok (encode (.opFX15 x)) ∧ t.dt = s.reg x) ∧
    (t.st = s.st ∨ ∃ x, s.fetch = .ok (encode (.opFX18 x)) ∧ t.st = s.reg x)

/-! ## Control flow -/

/-- R121: `1NNN` sets PC to NNN, whatever the address, and changes nothing else. -/
def Obligations.JumpGoesToNNN : Prop :=
  ∀ (nnn : Imm12) (s : State), ∃ t, exec (.op1NNN nnn) s = .next t ∧
    t.pc.toNat = nnn.toNat ∧ Unchanged {} s t

/-- R127: `BNNN` sets PC to NNN + V0, not reduced. -/
def Obligations.IndexedJumpGoesToSum : Prop :=
  ∀ (nnn : Imm12) (s : State), ∃ t, exec (.opBNNN nnn) s = .next t ∧
    t.pc.toNat = nnn.toNat + (s.reg 0).toNat ∧ Unchanged {} s t

/-- R123 and R124: the skips on an immediate. -/
def Obligations.ImmediateSkipsCompareVxWithNN : Prop :=
  ∀ (x : Nibble) (nn : Byte) (s : State),
    (∃ t, exec (.op3XNN x nn) s = .next t ∧
      t.pc = s.pc + (if (s.reg x).toNat = nn.toNat then 4 else 2) ∧ Unchanged {} s t) ∧
    (∃ t, exec (.op4XNN x nn) s = .next t ∧
      t.pc = s.pc + (if (s.reg x).toNat = nn.toNat then 2 else 4) ∧ Unchanged {} s t)

/-- R125 and R126: the skips on two registers; with `X = Y` the first always and the second never
skips. -/
def Obligations.RegisterSkipsCompareVxWithVy : Prop :=
  ∀ (x y : Nibble) (s : State),
    (∃ t, exec (.op5XY0 x y) s = .next t ∧
      t.pc = s.pc + (if (s.reg x).toNat = (s.reg y).toNat then 4 else 2) ∧ Unchanged {} s t) ∧
    (∃ t, exec (.op9XY0 x y) s = .next t ∧
      t.pc = s.pc + (if (s.reg x).toNat = (s.reg y).toNat then 2 else 4) ∧ Unchanged {} s t)

/-- `2NNN` with SP below 16 pushes PC + 2, counts SP up and jumps (41_flow.md section 3). Derived: the
completion half of a rule whose fault half is decision D8. -/
def Obligations.CallPushesReturnAddress : Prop :=
  ∀ (nnn : Imm12) (s : State), s.sp.val < 16 → ∃ t, exec (.op2NNN nnn) s = .next t ∧
    t.sp.val = s.sp.val + 1 ∧
    (∀ j (h : j < 16), t.stack[j] = if j = s.sp.val then s.pc + 2 else s.stack[j]) ∧
    t.pc.toNat = nnn.toNat ∧ Unchanged { stack := true } s t

/-- `00EE` with SP above 0 counts SP down and jumps to the entry there, which stays in place
(41_flow.md section 1). Derived: decisions D8, D9. -/
def Obligations.ReturnPopsReturnAddress : Prop :=
  ∀ s : State, 0 < s.sp.val → ∃ t, exec .op00EE s = .next t ∧
    t.sp.val + 1 = s.sp.val ∧ t.stack = s.stack ∧ s.stack[t.sp.val]? = some t.pc ∧
    Unchanged { stack := true } s t

/-- Call, any instructions that neither call nor return, return: PC is after the call and SP as before it
(41_flow.md section 3, the round-trip law). -/
def Obligations.CallThenReturnRoundTrips : Prop :=
  ∀ (nnn : Imm12) (body : List Instr) (s t u : State), s.sp.val < 16 →
    exec (.op2NNN nnn) s = .next t → (∀ i ∈ body, KeepsStack i) → execAll body t = .next u →
    ∃ w, exec .op00EE u = .next w ∧ w.pc = s.pc + 2 ∧ w.sp = s.sp

/-! ## Load, arithmetic, logic, shifts, random -/

/-- R140 and R142: load immediate and register copy; every other register, VF among them, stays. -/
def Obligations.LoadImmediateAndCopySetVx : Prop :=
  ∀ (x y : Nibble) (nn : Byte) (s : State),
    (∃ t, exec (.op6XNN x nn) s = .next t ∧ t.reg x = nn ∧ t.pc = s.pc + 2 ∧
      Unchanged { regs := [x] } s t) ∧
    (∃ t, exec (.op8XY0 x y) s = .next t ∧ t.reg x = s.reg y ∧ t.pc = s.pc + 2 ∧
      Unchanged { regs := [x] } s t)

/-- R141: add immediate, modulo 256, VF untouched unless it is `Vx`. -/
def Obligations.AddImmediateWrapsWithoutFlag : Prop :=
  ∀ (x : Nibble) (nn : Byte) (s : State), ∃ t, exec (.op7XNN x nn) s = .next t ∧
    (t.reg x).toNat = ((s.reg x).toNat + nn.toNat) % 256 ∧ t.pc = s.pc + 2 ∧
    Unchanged { regs := [x] } s t

/-- R143, R144, R145: OR, AND, XOR bit by bit, VF untouched unless it is `Vx`. -/
def Obligations.LogicActsBitByBitWithoutFlag : Prop :=
  ∀ (x y : Nibble) (s : State),
    (∃ t, exec (.op8XY1 x y) s = .next t ∧
      (∀ k, k < 8 → (t.reg x).getLsbD k = ((s.reg x).getLsbD k || (s.reg y).getLsbD k)) ∧
      t.pc = s.pc + 2 ∧ Unchanged { regs := [x] } s t) ∧
    (∃ t, exec (.op8XY2 x y) s = .next t ∧
      (∀ k, k < 8 → (t.reg x).getLsbD k = ((s.reg x).getLsbD k && (s.reg y).getLsbD k)) ∧
      t.pc = s.pc + 2 ∧ Unchanged { regs := [x] } s t) ∧
    (∃ t, exec (.op8XY3 x y) s = .next t ∧
      (∀ k, k < 8 → (t.reg x).getLsbD k = ((s.reg x).getLsbD k ^^ (s.reg y).getLsbD k)) ∧
      t.pc = s.pc + 2 ∧ Unchanged { regs := [x] } s t)

/-- R146: `8XY4`, sum modulo 256 and carry, the carry last. -/
def Obligations.AddSetsCarryLast : Prop :=
  ∀ (x y : Nibble) (s : State), ∃ t, exec (.op8XY4 x y) s = .next t ∧
    (x ≠ 15 → (t.reg x).toNat = ((s.reg x).toNat + (s.reg y).toNat) % 256) ∧
    (t.reg 15).toNat = (if (s.reg x).toNat + (s.reg y).toNat > 255 then 1 else 0) ∧
    t.pc = s.pc + 2 ∧ Unchanged { regs := [x, 15] } s t

/-- R147 and R149: `8XY5` and `8XY7`, the two differences modulo 256 and the no-borrow flag, the flag
last. -/
def Obligations.SubtractsSetNoBorrowLast : Prop :=
  ∀ (x y : Nibble) (s : State),
    (∃ t, exec (.op8XY5 x y) s = .next t ∧
      (x ≠ 15 → (t.reg x).toNat =
        if (s.reg x).toNat ≥ (s.reg y).toNat then (s.reg x).toNat - (s.reg y).toNat
        else (s.reg x).toNat + 256 - (s.reg y).toNat) ∧
      (t.reg 15).toNat = (if (s.reg x).toNat ≥ (s.reg y).toNat then 1 else 0) ∧
      t.pc = s.pc + 2 ∧ Unchanged { regs := [x, 15] } s t) ∧
    (∃ t, exec (.op8XY7 x y) s = .next t ∧
      (x ≠ 15 → (t.reg x).toNat =
        if (s.reg y).toNat ≥ (s.reg x).toNat then (s.reg y).toNat - (s.reg x).toNat
        else (s.reg y).toNat + 256 - (s.reg x).toNat) ∧
      (t.reg 15).toNat = (if (s.reg y).toNat ≥ (s.reg x).toNat then 1 else 0) ∧
      t.pc = s.pc + 2 ∧ Unchanged { regs := [x, 15] } s t)

/-- R148 and R150: the shifts take `Vy`, put the result into `Vx` and the bit shifted out into VF, the
flag last. -/
def Obligations.ShiftsOfVySetShiftedOutBitLast : Prop :=
  ∀ (x y : Nibble) (s : State),
    (∃ t, exec (.op8XY6 x y) s = .next t ∧
      (x ≠ 15 → (t.reg x).toNat = (s.reg y).toNat / 2) ∧
      (t.reg 15).toNat = (s.reg y).toNat % 2 ∧
      t.pc = s.pc + 2 ∧ Unchanged { regs := [x, 15] } s t) ∧
    (∃ t, exec (.op8XYE x y) s = .next t ∧
      (x ≠ 15 → (t.reg x).toNat = (s.reg y).toNat * 2 % 256) ∧
      (t.reg 15).toNat = (s.reg y).toNat / 128 ∧
      t.pc = s.pc + 2 ∧ Unchanged { regs := [x, 15] } s t)

/-- `CXNN` takes one random byte, whatever NN is, and keeps the bits of the mask (42_alu.md section 5).
Derived: the byte is a free value of the model's (log 3, decision D21), so this holds for every random
source. -/
def Obligations.RandomByteIsMaskedAndConsumed : Prop :=
  ∀ (x : Nibble) (nn : Byte) (s : State), ∃ t, exec (.opCXNN x nn) s = .next t ∧
    t.reg x = Config.rnd s.rndCount &&& nn ∧ t.reg x &&& ~~~nn = 0 ∧
    t.rndCount = s.rndCount + 1 ∧ t.pc = s.pc + 2 ∧ Unchanged { regs := [x], rnd := true } s t

/-! ## Index register and memory -/

/-- R170: `ANNN` sets I to NNN. -/
def Obligations.LoadIndexSetsI : Prop :=
  ∀ (nnn : Imm12) (s : State), ∃ t, exec (.opANNN nnn) s = .next t ∧
    t.index.toNat = nnn.toNat ∧ t.pc = s.pc + 2 ∧ Unchanged { index := true } s t

/-- `FX1E` adds modulo 65536 without a flag, `FX29` points I at `0x050 + 5 * Vx` for the whole byte
(43_index_memory.md section 1). Derived: decisions D10, D13 (logs 14, 16). -/
def Obligations.IndexAddAndGlyphAddress : Prop :=
  ∀ (x : Nibble) (s : State),
    (∃ t, exec (.opFX1E x) s = .next t ∧
      t.index.toNat = (s.index.toNat + (s.reg x).toNat) % 65536 ∧ t.pc = s.pc + 2 ∧
      Unchanged { index := true } s t) ∧
    (∃ t, exec (.opFX29 x) s = .next t ∧ t.index.toNat = 0x050 + 5 * (s.reg x).toNat ∧
      t.pc = s.pc + 2 ∧ Unchanged { index := true } s t)

/-- `FX33` with all three addresses in memory stores the decimal digits at I, I + 1, I + 2
(43_index_memory.md section 2). Derived: the completion half of a rule whose fault half rests on
decision D5. -/
def Obligations.StoreDigitsWritesDecimal : Prop :=
  ∀ (x : Nibble) (s : State), s.index.toNat + 2 < 4096 → ∃ t, exec (.opFX33 x) s = .next t ∧
    (t.mem.peek s.index.toNat).toNat ≤ 2 ∧ (t.mem.peek (s.index.toNat + 1)).toNat ≤ 9 ∧
    (t.mem.peek (s.index.toNat + 2)).toNat ≤ 9 ∧
    (t.mem.peek s.index.toNat).toNat * 100 + (t.mem.peek (s.index.toNat + 1)).toNat * 10 +
      (t.mem.peek (s.index.toNat + 2)).toNat = (s.reg x).toNat ∧
    t.pc = s.pc + 2 ∧ Unchanged { mem := addresses s.index.toNat 3 } s t

/-- `FX55` with all its addresses in memory stores V0 to Vx at I upward, I unchanged
(43_index_memory.md section 2). Derived: decisions D5, D11. -/
def Obligations.StoreRegistersWritesV0ToVx : Prop :=
  ∀ (x : Nibble) (s : State), s.index.toNat + x.toNat < 4096 → ∃ t, exec (.opFX55 x) s = .next t ∧
    (∀ j : Nibble, j.toNat ≤ x.toNat → t.mem.peek (s.index.toNat + j.toNat) = s.reg j) ∧
    t.pc = s.pc + 2 ∧ Unchanged { mem := addresses s.index.toNat (x.toNat + 1) } s t

/-- `FX65` with all its addresses in memory loads V0 to Vx from I upward, I and the higher registers
unchanged (43_index_memory.md section 3). Derived: decisions D5, D11. -/
def Obligations.LoadRegistersReadsV0ToVx : Prop :=
  ∀ (x : Nibble) (s : State), s.index.toNat + x.toNat < 4096 → ∃ t, exec (.opFX65 x) s = .next t ∧
    (∀ j : Nibble, j.toNat ≤ x.toNat → t.reg j = s.mem.peek (s.index.toNat + j.toNat)) ∧
    t.pc = s.pc + 2 ∧ Unchanged { regs := regsUpTo x } s t

/-- `FX55` then `FX65` restores the registers; `FX65` then `FX55` rewrites the same bytes
(43_index_memory.md section 4). -/
def Obligations.StoreAndLoadRegistersAreInverse : Prop :=
  ∀ (x : Nibble) (s : State), s.index.toNat + x.toNat < 4096 →
    (∃ t u, exec (.opFX55 x) s = .next t ∧ exec (.opFX65 x) t = .next u ∧ u.v = s.v) ∧
    (∃ t u, exec (.opFX65 x) s = .next t ∧ exec (.opFX55 x) t = .next u ∧
      ∀ a, u.mem.peek a = s.mem.peek a)

/-- A store is seen by the next fetch: after an `FX55` that stores over the word after itself, the fetch
reads V0 and V1 (20_memory.md section 8). -/
def Obligations.StoreIsSeenByNextFetch : Prop :=
  ∀ (x : Nibble) (s : State), 1 ≤ x.toNat → s.index = s.pc + 2 → s.pc.toNat ≤ 4092 →
    s.index.toNat + x.toNat < 4096 →
    ∃ t, exec (.opFX55 x) s = .next t ∧ t.fetch = .ok (wordOfBytes (s.reg 0) (s.reg 1))

/-! ## Display -/

/-- R190 and R200: `00E0` clears every pixel and marks redraw; VF is not written. -/
def Obligations.ClearDisplayClearsEveryPixel : Prop :=
  ∀ s : State, ∃ t, exec .op00E0 s = .next t ∧ (∀ x y, t.fb.pixel x y = false) ∧
    t.needsRedraw = true ∧ t.pc = s.pc + 2 ∧ Unchanged { fb := true, redraw := true } s t

/-- `DXYN` pixel by pixel: the sprite's bits are XORed on, wrapped in the row, clipped at the bottom; VF is
1 iff a lit pixel is turned off (44_display.md section 3). Derived: decisions D5, D15, D16, D17, D31. -/
def Obligations.DrawXorsSpriteAndReportsCollision : Prop :=
  ∀ (x y n : Nibble) (s : State), SpriteInMemory s y n → ∃ t, exec (.opDXYN x y n) s = .next t ∧
    (∀ col row, t.fb.pixel col row = (s.fb.pixel col row ^^ spriteBit s x y n col row)) ∧
    (t.reg 15 = 1 ∧ (∃ col row, s.fb.pixel col row = true ∧ t.fb.pixel col row = false) ∨
      t.reg 15 = 0 ∧ ∀ col row, s.fb.pixel col row = true → t.fb.pixel col row = true) ∧
    t.needsRedraw = true ∧ t.pc = s.pc + 2 ∧
    Unchanged { regs := [15], fb := true, redraw := true } s t

/-- The double-draw law (44_display.md section 3, 90_conflicts.md C12): the same sprite drawn twice leaves
the framebuffer as it was, and the second draw reports a collision iff the sprite covers a pixel lit
after the first. Derived: the bytes in memory and the pixels the sprite covers are those of decisions D5,
D15 and D16 (logs 9, 17, 18). -/
def Obligations.DrawingTwiceRestoresFramebuffer : Prop :=
  ∀ (x y n : Nibble) (s t u : State), SpriteInMemory s y n → exec (.opDXYN x y n) s = .next t →
    u.fb = t.fb → u.reg x = s.reg x → u.reg y = s.reg y → u.index = s.index →
    (∀ a, u.mem.peek a = s.mem.peek a) →
    ∃ w, exec (.opDXYN x y n) u = .next w ∧ w.fb = s.fb ∧
      (w.reg 15 = 1 ↔ ∃ col row, spriteBit s x y n col row = true ∧ t.fb.pixel col row = true)

/-- R193 and R194: a byte read takes the eight pixels from its column, wrapping within the row, most
significant first; a byte write puts them there and leaves every other pixel. -/
def Obligations.FramebufferBytesWrapWithinTheRow : Prop :=
  ∀ (fb : Framebuffer) (x : BitVec 6) (y : BitVec 5),
    (∀ i, i < 8 →
      (fb.getByte x y).getLsbD (7 - i) = fb.pixel (BitVec.ofNat 6 ((x.toNat + i) % 64)) y) ∧
    (∀ (b : Byte) (i : Nat), i < 8 →
      (fb.setByte x y b).pixel (BitVec.ofNat 6 ((x.toNat + i) % 64)) y = b.getLsbD (7 - i)) ∧
    (∀ (b : Byte) (col : BitVec 6) (row : BitVec 5),
      (row ≠ y ∨ ∀ i, i < 8 → col.toNat ≠ (x.toNat + i) % 64) →
      (fb.setByte x y b).pixel col row = fb.pixel col row) ∧
    fb.setByte x y (fb.getByte x y) = fb

/-- The host's views show the framebuffer: byte `8 * y + j` of the 256 exported has the pixels of columns
`8 * j` up of row `y`, and the text has a line of 64 characters for each row (44_display.md section 2).
Derived: the byte order is the spec's derivation, the line separator its decision D34 (log 24). -/
def Obligations.HostViewsShowEveryPixel : Prop :=
  ∀ fb : Framebuffer, fb.frameExport.length = 256 ∧
    (∀ (y j i : Nat), y < 32 → j < 8 → i < 8 → ∃ b, fb.frameExport[8 * y + j]? = some b ∧
      b.getLsbD (7 - i) = fb.pixel (BitVec.ofNat 6 (8 * j + i)) (BitVec.ofNat 5 y)) ∧
    fb.text = List.intercalate ['\n'] ((List.range 32).map fun y =>
      (List.range 64).map fun x =>
        if fb.pixel (BitVec.ofNat 6 x) (BitVec.ofNat 5 y) = true then 'X' else '.')

/-! ## Keypad and timers -/

/-- `EX9E` and `EXA1` with a key number of 0 to 15 skip on the key's level (45_keypad_timer.md section 2).
Derived: the completion half of rules whose fault half is decision D14. -/
def Obligations.KeySkipsTestTheKeyLevel : Prop :=
  ∀ (x : Nibble) (s : State), (s.reg x).toNat ≤ 15 →
    (∃ t, exec (.opEX9E x) s = .next t ∧
      t.pc = s.pc + (if s.isPressed (BitVec.ofNat 4 (s.reg x).toNat) = true then 4 else 2) ∧
      Unchanged {} s t) ∧
    (∃ t, exec (.opEXA1 x) s = .next t ∧
      t.pc = s.pc + (if s.isPressed (BitVec.ofNat 4 (s.reg x).toNat) = true then 2 else 4) ∧
      Unchanged {} s t)

/-- `FX0A`: with the latch empty PC stays and the core is marked as waiting; with a key latched it is
taken into Vx (45_keypad_timer.md section 2). Derived: that the wait does not flush the latch is decision
D18. -/
def Obligations.KeyWaitTakesTheLatchedKey : Prop :=
  ∀ (x : Nibble) (s : State),
    (s.latch = none → ∃ t, exec (.opFX0A x) s = .next t ∧ t.haltedForKey = true ∧ t.pc = s.pc ∧
      Unchanged { halted := true } s t) ∧
    (∀ k, s.latch = some k → ∃ t, exec (.opFX0A x) s = .next t ∧ (t.reg x).toNat = k.toNat ∧
      t.latch = none ∧ t.haltedForKey = false ∧ t.pc = s.pc + 2 ∧
      Unchanged { regs := [x], latch := true, halted := true } s t)

/-- R228, R229, R230: the timer instructions, in COUPLED mode with the same STEP's decrement after them. -/
def Obligations.TimerInstructionsMoveBetweenVxAndTimers : Prop :=
  ∀ (x : Nibble) (s : State),
    (∃ t, exec (.opFX07 x) s = .next t ∧ t.reg x = s.dt ∧ t.pc = s.pc + 2 ∧
      t.endOfStep.reg x = s.dt ∧
      (Running s → s.timerMode = .coupled → t.endOfStep.dt.toNat = s.dt.toNat - 1) ∧
      Unchanged { regs := [x] } s t) ∧
    (∃ t, exec (.opFX15 x) s = .next t ∧ t.dt = s.reg x ∧ t.pc = s.pc + 2 ∧
      (Running s → s.timerMode = .coupled → t.endOfStep.dt.toNat = (s.reg x).toNat - 1) ∧
      Unchanged { dt := true } s t) ∧
    (∃ t, exec (.opFX18 x) s = .next t ∧ t.st = s.reg x ∧ t.pc = s.pc + 2 ∧
      (Running s → s.timerMode = .coupled → t.endOfStep.st.toNat = (s.reg x).toNat - 1) ∧
      Unchanged { st := true } s t)

/-! ## Whole-machine rules -/

/-- Every instruction answers a next state in every state; a faulting one changes the latch alone, to what
the table of faults gives it, and no other instruction touches the latch (60_exceptions.md sections 2
and 3). Derived: decisions D3, D4, D5, D8, D14. -/
def Obligations.ExecFaultsExactlyAsTabled : Prop :=
  ∀ (i : Instr) (s : State), ∃ t, exec i s = .next t ∧
    match tabledFault i s with
    | some f => t = { s with fault := f }
    | none => t.fault = s.fault

/-- Of the instructions only `FX33` and `FX55` write memory, only `00E0` and `DXYN` the framebuffer, only
`2NNN` and `00EE` the stack (20_memory.md section 1, 10_state.md sections 4 and 7). -/
def Obligations.OnlyNamedInstructionsWriteMemoryFbStack : Prop :=
  ∀ (i : Instr) (s t : State), exec i s = .next t →
    (t.mem = s.mem ∨ ∃ x, i = .opFX33 x ∨ i = .opFX55 x) ∧
    (t.fb = s.fb ∨ i = .op00E0 ∨ ∃ x y n, i = .opDXYN x y n) ∧
    ((t.stack = s.stack ∧ t.sp = s.sp) ∨ i = .op00EE ∨ ∃ nnn, i = .op2NNN nnn)

/-- No instruction presses or releases a key, only `FX0A` empties the latch or writes `halted_for_key`,
only the host clears `needs_redraw`, and the host's own fields stay (10_state.md sections 6 and 7; the
model's fields, logs 2, 4, 5, 7). -/
def Obligations.InstructionsKeepHostOwnedState : Prop :=
  ∀ (i : Instr) (s t : State), exec i s = .next t →
    t.keys = s.keys ∧ ((t.latch = s.latch ∧ t.haltedForKey = s.haltedForKey) ∨ ∃ x, i = .opFX0A x) ∧
    (s.needsRedraw = true → t.needsRedraw = true) ∧
    t.timerMode = s.timerMode ∧ t.event = s.event ∧ t.stepped = s.stepped ∧
    t.hostEvents = s.hostEvents

/-- No instruction reads the sound timer, `needs_redraw` or `halted_for_key`: with other values there, the
outcome differs in them alone (10_state.md sections 5 and 6). -/
def Obligations.InstructionsIgnoreSoundTimerAndFlags : Prop :=
  ∀ (i : Instr) (s t : State) (v : Byte) (redraw halted : Bool), exec i s = .next t →
    ∃ t', exec i { s with st := v, needsRedraw := redraw, haltedForKey := halted } = .next t' ∧
      t' = { t with st := t'.st, needsRedraw := t'.needsRedraw, haltedForKey := t'.haltedForKey } ∧
      (t'.st = v ∨ t'.st = t.st) ∧ (t'.needsRedraw = redraw ∨ t'.needsRedraw = t.needsRedraw) ∧
      (t'.haltedForKey = halted ∨ t'.haltedForKey = t.haltedForKey)

/-- The flag register (10_state.md section 2), derived from the rules of the instructions: the flag
instructions leave VF as the table there says, whatever registers they name; of the others none changes VF
unless it names register F as its destination. -/
def Obligations.FlagRegisterFollowsItsTable : Prop :=
  ∀ (i : Instr) (s t : State), exec i s = .next t → tabledFault i s = none →
    match i with
    | .op8XY4 x y => (t.reg 15).toNat = if (s.reg x).toNat + (s.reg y).toNat > 255 then 1 else 0
    | .op8XY5 x y => (t.reg 15).toNat = if (s.reg x).toNat ≥ (s.reg y).toNat then 1 else 0
    | .op8XY6 _ y => (t.reg 15).toNat = if (s.reg y).getLsbD 0 then 1 else 0
    | .op8XY7 x y => (t.reg 15).toNat = if (s.reg y).toNat ≥ (s.reg x).toNat then 1 else 0
    | .op8XYE _ y => (t.reg 15).toNat = if (s.reg y).getLsbD 7 then 1 else 0
    | .opDXYN _ _ _ =>
      t.reg 15 = 1 ∧ (∃ col row, s.fb.pixel col row = true ∧ t.fb.pixel col row = false) ∨
      t.reg 15 = 0 ∧ ∀ col row, s.fb.pixel col row = true → t.fb.pixel col row = true
    | .op6XNN x _ | .op7XNN x _ | .op8XY0 x _ | .op8XY1 x _ | .op8XY2 x _ | .op8XY3 x _
    | .opCXNN x _ | .opFX07 x | .opFX0A x | .opFX65 x => x ≠ 15 → t.reg 15 = s.reg 15
    | _ => t.reg 15 = s.reg 15

/-! ## Invariants -/

/-- The reset state meets every invariant of this file. -/
def Obligations.ResetStateMeetsInvariants : Prop :=
  MemoryCanonical State.reset ∧ PcAndStackBounded State.reset ∧ LatchLegal State.reset ∧
    WaitsAtKey State.reset

/-- Every step keeps memory in canonical form (the model's representation of 10_state.md R30, log 11). -/
def Obligations.StepKeepsMemoryCanonical : Prop :=
  ∀ s t : State, MemoryCanonical s → step s = .next t → MemoryCanonical t

/-- Every step keeps PC at most `0x10FE` and the stack's entries at most 4096, so the 16-bit wraps of the
PC increments are unreachable (10_state.md section 3, 41_flow.md section 1). -/
def Obligations.StepKeepsPcAndStackBounded : Prop :=
  ∀ s t : State, PcAndStackBounded s → step s = .next t → PcAndStackBounded t

/-- Every step keeps the fault latch at a row of the table of faults (60_exceptions.md section 2). -/
def Obligations.StepKeepsFaultLatchLegal : Prop :=
  ∀ s t : State, LatchLegal s → step s = .next t → LatchLegal t

/-- Every step keeps the law that `halted_for_key` is 1 only while PC is at an `FX0A`
(10_state.md section 6); it rests on the refusal of a LOAD after the first STEP (log 5). -/
def Obligations.StepKeepsKeyWaitAtFX0A : Prop :=
  ∀ s t : State, WaitsAtKey s → step s = .next t → WaitsAtKey t
end

