-- ==== Sys2Proof/Laws/Memory.lean ====
section
/-! SUPPORT. Main memory: what one store changes, what a run of stores changes, and that every memory
operation keeps the canonical form. The read laws hold of every memory, canonical or not. -/

namespace Sys2Proof.Machine

/-! ## One byte -/

theorem Memory.lookup_erase (m : Memory) (a c : Nat) :
    (m.erase a).lookup c = if c = a then none else m.lookup c := by
  induction m with
  | nil => simp [Memory.erase, Memory.lookup]
  | cons d rest ih =>
    obtain ⟨b, w⟩ := d
    by_cases hb : b = a
    · have : Memory.erase ((b, w) :: rest) a = Memory.erase rest a := by simp [Memory.erase, hb]
      rw [this, ih, Memory.lookup]
      by_cases hc : c = a
      · rw [if_pos hc, if_pos hc]
      · rw [if_neg hc, if_neg hc, if_neg (by omega)]
    · have : Memory.erase ((b, w) :: rest) a = (b, w) :: Memory.erase rest a := by
        simp [Memory.erase, hb]
      rw [this, Memory.lookup, Memory.lookup, ih]
      by_cases hc : b = c
      · rw [if_pos hc, if_pos hc, if_neg (by omega)]
      · rw [if_neg hc, if_neg hc]

theorem Memory.lookup_insert (m : Memory) (a c : Nat) (w : Byte) (fresh : Memory.lookup m a = none) :
    (m.insert a w).lookup c = if c = a then some w else m.lookup c := by
  have flip : (if a = c then some w else m.lookup c) = if c = a then some w else m.lookup c := by
    by_cases hc : c = a
    · rw [if_pos hc, if_pos hc.symm]
    · rw [if_neg hc, if_neg (Ne.symm hc)]
  induction m with
  | nil => exact flip
  | cons d rest ih =>
    obtain ⟨b, u⟩ := d
    have hba : b ≠ a := by
      intro h; simp [Memory.lookup, h] at fresh
    have fresh' : Memory.lookup rest a = none := by
      rw [Memory.lookup, if_neg hba] at fresh; exact fresh
    unfold Memory.insert
    split
    · rw [← flip]; rfl
    · rw [Memory.lookup, Memory.lookup]
      by_cases hbc : b = c
      · rw [if_pos hbc, if_pos hbc, if_neg (by omega)]
      · rw [if_neg hbc, if_neg hbc]
        refine ih fresh' ?_
        by_cases hc : c = a
        · rw [if_pos hc, if_pos hc.symm]
        · rw [if_neg hc, if_neg (Ne.symm hc)]

/-- Everything one store can do to what is read: inside the address space the byte is there and every
other address reads as before; outside nothing changes. -/
theorem Memory.peek_poke (m : Memory) (a c : Nat) (w : Byte) :
    (m.poke a w).peek c = if c = a ∧ a < Config.memSize then w else m.peek c := by
  unfold Memory.poke Memory.peek
  by_cases ha : a < Config.memSize
  · by_cases hw : w = unlisted a
    · by_cases hc : c = a
      · subst hc; simp [ha, hw, Memory.lookup_erase]
      · simp [ha, hw, Memory.lookup_erase, hc]
    · have fresh : (m.erase a).lookup a = none := by simp [Memory.lookup_erase]
      by_cases hc : c = a
      · simp [ha, hw, Memory.lookup_insert _ _ _ _ fresh, hc]
      · simp [ha, hw, Memory.lookup_insert _ _ _ _ fresh, hc, Memory.lookup_erase]
  · simp [ha]

theorem Memory.peek_poke_same (m : Memory) {a : Nat} (w : Byte) (ha : a < Config.memSize) :
    (m.poke a w).peek a = w := by
  rw [Memory.peek_poke]; simp [ha]

theorem Memory.peek_poke_other (m : Memory) {a c : Nat} (w : Byte) (h : c ≠ a) :
    (m.poke a w).peek c = m.peek c := by
  rw [Memory.peek_poke]; simp [h]

/-! ## Bytes in a row -/

/-- Everything a run of stores can do to what is read: the stored range reads as the bytes, every other
address as before. -/
theorem Memory.peek_pokeBytes (bs : List Byte) (m : Memory) (a c : Nat) :
    (m.pokeBytes a bs).peek c =
      if a ≤ c ∧ c < a + bs.length ∧ c < Config.memSize then bs.getD (c - a) 0 else m.peek c := by
  induction bs generalizing m a with
  | nil =>
    have : ¬ (a ≤ c ∧ c < a + 0 ∧ c < Config.memSize) := by omega
    simp only [Memory.pokeBytes, List.length_nil, if_neg this]
  | cons w ws ih =>
    rw [Memory.pokeBytes, ih, Memory.peek_poke, List.length_cons]
    by_cases hca : c = a
    · subst hca
      have h1 : ¬ (c + 1 ≤ c ∧ c < c + 1 + ws.length ∧ c < Config.memSize) := by omega
      rw [if_neg h1]
      by_cases hm : c < Config.memSize
      · rw [if_pos ⟨rfl, hm⟩, if_pos ⟨Nat.le_refl _, by omega, hm⟩]; simp
      · rw [if_neg (by omega), if_neg (by omega)]
    · by_cases hin : a ≤ c ∧ c < a + (ws.length + 1) ∧ c < Config.memSize
      · rw [if_pos hin, if_pos (by omega)]
        have : c - a = (c - (a + 1)) + 1 := by omega
        rw [this]; simp
      · rw [if_neg hin, if_neg (by omega), if_neg (by omega)]

/-! ## Canonical form -/

/-- The least address a memory in canonical form may list. -/
theorem Memory.wf_cons (c : Host.Cell) (m : Memory) :
    Memory.wf (c :: m) = true ↔
      cellCanonical c = true ∧ (∀ d ∈ m, c.1 < d.1) ∧ Memory.wf m = true := by
  induction m generalizing c with
  | nil => simp [Memory.wf]
  | cons d rest ih =>
    simp only [Memory.wf, Bool.and_eq_true, decide_eq_true_eq]
    constructor
    · rintro ⟨⟨hc, hcd⟩, hw⟩
      refine ⟨hc, ?_, hw⟩
      intro e he
      rcases List.mem_cons.1 he with rfl | he
      · exact hcd
      · exact Nat.lt_trans hcd (((ih d).1 hw).2.1 e he)
    · rintro ⟨hc, hall, hw⟩
      exact ⟨⟨hc, hall d (List.mem_cons_self ..)⟩, hw⟩

theorem Memory.mem_erase {m : Memory} {a : Nat} {d : Host.Cell} :
    d ∈ m.erase a ↔ d ∈ m ∧ d.1 ≠ a := by
  simp [Memory.erase]

theorem Memory.wf_erase {m : Memory} (a : Nat) (h : m.wf = true) : (m.erase a).wf = true := by
  induction m with
  | nil => rfl
  | cons c rest ih =>
    obtain ⟨hc, hall, hw⟩ := (Memory.wf_cons c rest).1 h
    by_cases hca : c.1 = a
    · have : Memory.erase (c :: rest) a = Memory.erase rest a := by simp [Memory.erase, hca]
      rw [this]; exact ih hw
    · have : Memory.erase (c :: rest) a = c :: Memory.erase rest a := by simp [Memory.erase, hca]
      rw [this]
      exact (Memory.wf_cons _ _).2 ⟨hc, fun d hd => hall d (Memory.mem_erase.1 hd).1, ih hw⟩

theorem Memory.mem_insert {m : Memory} {a : Nat} {w : Byte} {d : Host.Cell} :
    d ∈ m.insert a w → d = (a, w) ∨ d ∈ m := by
  induction m with
  | nil => simp [Memory.insert]
  | cons c rest ih =>
    obtain ⟨b, u⟩ := c
    unfold Memory.insert
    split
    · simp
    · intro hd
      rcases List.mem_cons.1 hd with h | h
      · exact .inr (h ▸ List.mem_cons_self ..)
      · rcases ih h with h | h
        · exact .inl h
        · exact .inr (List.mem_cons_of_mem _ h)

theorem Memory.wf_insert {m : Memory} {a : Nat} {w : Byte} (h : m.wf = true)
    (hc : cellCanonical (a, w) = true) (fresh : ∀ d ∈ m, d.1 ≠ a) : (m.insert a w).wf = true := by
  induction m with
  | nil => simpa [Memory.insert, Memory.wf] using hc
  | cons c rest ih =>
    obtain ⟨b, u⟩ := c
    obtain ⟨hb, hall, hw⟩ := (Memory.wf_cons _ rest).1 h
    unfold Memory.insert
    split
    · rename_i hab
      refine (Memory.wf_cons _ _).2 ⟨hc, ?_, h⟩
      intro d hd
      rcases List.mem_cons.1 hd with rfl | hd
      · exact hab
      · exact Nat.lt_trans hab (hall d hd)
    · rename_i hab
      have hba : b < a := by
        have := fresh (b, u) (List.mem_cons_self ..)
        simp only at this
        omega
      refine (Memory.wf_cons _ _).2 ⟨hb, ?_, ih hw fun d hd => fresh d (List.mem_cons_of_mem _ hd)⟩
      intro d hd
      rcases Memory.mem_insert hd with rfl | hd
      · exact hba
      · exact hall d hd

/-- A store keeps the canonical form. -/
theorem Memory.wf_poke {m : Memory} (a : Nat) (w : Byte) (h : m.wf = true) :
    (m.poke a w).wf = true := by
  unfold Memory.poke
  split
  · rename_i ha
    split
    · exact Memory.wf_erase a h
    · rename_i hw
      refine Memory.wf_insert (Memory.wf_erase a h) ?_ fun d hd => (Memory.mem_erase.1 hd).2
      simp [cellCanonical, ha, hw]
  · exact h

/-- Stores in a row keep the canonical form. -/
theorem Memory.wf_pokeBytes (bs : List Byte) {m : Memory} (a : Nat) (h : m.wf = true) :
    (m.pokeBytes a bs).wf = true := by
  induction bs generalizing m a with
  | nil => exact h
  | cons w ws ih => exact ih (a + 1) (Memory.wf_poke a w h)

/-- Reset memory is canonical. -/
theorem State.reset_mem_wf : State.reset.mem.wf = true := rfl

/-! ## The range check -/

/-- Everything the range check can answer. -/
theorem rangeFault_eq (first count : Nat) (kind : AccessKind) :
    rangeFault first count kind =
      if 0 < count ∧ Config.memSize < first + count then
        some (memoryFault (max first Config.memSize) kind) else none := by
  unfold rangeFault
  by_cases h : 0 < count ∧ Config.memSize < first + count
  · rw [if_pos h, if_pos (by omega)]
  · rw [if_neg h, if_neg (by omega)]

theorem rangeFault_none {first count : Nat} (kind : AccessKind)
    (h : count = 0 ∨ first + count ≤ Config.memSize) : rangeFault first count kind = none := by
  rw [rangeFault_eq, if_neg (by omega)]

theorem rangeFault_some {first count : Nat} (kind : AccessKind)
    (h : 0 < count ∧ Config.memSize < first + count) :
    rangeFault first count kind = some (memoryFault (max first Config.memSize) kind) := by
  rw [rangeFault_eq, if_pos h]

end Sys2Proof.Machine
end

