-- ==== Sys2Proof/Laws/State.lean ====
section
/-! SUPPORT. What each named update does to each field of State, one lemma a field, all by rfl, so that
no later proof unfolds a record update. -/

namespace Sys2Proof.Machine

variable (s : State)

/-! ### `State.setReg` -/

@[simp] theorem State.setReg_v (x : Nibble) (b : Byte) : (s.setReg x b).v = s.v.set x.toNat b x.isLt := rfl
@[simp] theorem State.setReg_pc (x : Nibble) (b : Byte) : (s.setReg x b).pc = s.pc := rfl
@[simp] theorem State.setReg_index (x : Nibble) (b : Byte) : (s.setReg x b).index = s.index := rfl
@[simp] theorem State.setReg_stack (x : Nibble) (b : Byte) : (s.setReg x b).stack = s.stack := rfl
@[simp] theorem State.setReg_sp (x : Nibble) (b : Byte) : (s.setReg x b).sp = s.sp := rfl
@[simp] theorem State.setReg_dt (x : Nibble) (b : Byte) : (s.setReg x b).dt = s.dt := rfl
@[simp] theorem State.setReg_st (x : Nibble) (b : Byte) : (s.setReg x b).st = s.st := rfl
@[simp] theorem State.setReg_haltedForKey (x : Nibble) (b : Byte) : (s.setReg x b).haltedForKey = s.haltedForKey := rfl
@[simp] theorem State.setReg_needsRedraw (x : Nibble) (b : Byte) : (s.setReg x b).needsRedraw = s.needsRedraw := rfl
@[simp] theorem State.setReg_fault (x : Nibble) (b : Byte) : (s.setReg x b).fault = s.fault := rfl
@[simp] theorem State.setReg_mem (x : Nibble) (b : Byte) : (s.setReg x b).mem = s.mem := rfl
@[simp] theorem State.setReg_fb (x : Nibble) (b : Byte) : (s.setReg x b).fb = s.fb := rfl
@[simp] theorem State.setReg_keys (x : Nibble) (b : Byte) : (s.setReg x b).keys = s.keys := rfl
@[simp] theorem State.setReg_latch (x : Nibble) (b : Byte) : (s.setReg x b).latch = s.latch := rfl
@[simp] theorem State.setReg_timerMode (x : Nibble) (b : Byte) : (s.setReg x b).timerMode = s.timerMode := rfl
@[simp] theorem State.setReg_rndCount (x : Nibble) (b : Byte) : (s.setReg x b).rndCount = s.rndCount := rfl
@[simp] theorem State.setReg_event (x : Nibble) (b : Byte) : (s.setReg x b).event = s.event := rfl
@[simp] theorem State.setReg_stepped (x : Nibble) (b : Byte) : (s.setReg x b).stepped = s.stepped := rfl
@[simp] theorem State.setReg_hostEvents (x : Nibble) (b : Byte) : (s.setReg x b).hostEvents = s.hostEvents := rfl

/-! ### `State.setPc` -/

@[simp] theorem State.setPc_v (w : Word) : (s.setPc w).v = s.v := rfl
@[simp] theorem State.setPc_pc (w : Word) : (s.setPc w).pc = w := rfl
@[simp] theorem State.setPc_index (w : Word) : (s.setPc w).index = s.index := rfl
@[simp] theorem State.setPc_stack (w : Word) : (s.setPc w).stack = s.stack := rfl
@[simp] theorem State.setPc_sp (w : Word) : (s.setPc w).sp = s.sp := rfl
@[simp] theorem State.setPc_dt (w : Word) : (s.setPc w).dt = s.dt := rfl
@[simp] theorem State.setPc_st (w : Word) : (s.setPc w).st = s.st := rfl
@[simp] theorem State.setPc_haltedForKey (w : Word) : (s.setPc w).haltedForKey = s.haltedForKey := rfl
@[simp] theorem State.setPc_needsRedraw (w : Word) : (s.setPc w).needsRedraw = s.needsRedraw := rfl
@[simp] theorem State.setPc_fault (w : Word) : (s.setPc w).fault = s.fault := rfl
@[simp] theorem State.setPc_mem (w : Word) : (s.setPc w).mem = s.mem := rfl
@[simp] theorem State.setPc_fb (w : Word) : (s.setPc w).fb = s.fb := rfl
@[simp] theorem State.setPc_keys (w : Word) : (s.setPc w).keys = s.keys := rfl
@[simp] theorem State.setPc_latch (w : Word) : (s.setPc w).latch = s.latch := rfl
@[simp] theorem State.setPc_timerMode (w : Word) : (s.setPc w).timerMode = s.timerMode := rfl
@[simp] theorem State.setPc_rndCount (w : Word) : (s.setPc w).rndCount = s.rndCount := rfl
@[simp] theorem State.setPc_event (w : Word) : (s.setPc w).event = s.event := rfl
@[simp] theorem State.setPc_stepped (w : Word) : (s.setPc w).stepped = s.stepped := rfl
@[simp] theorem State.setPc_hostEvents (w : Word) : (s.setPc w).hostEvents = s.hostEvents := rfl

/-! ### `State.advance` -/

@[simp] theorem State.advance_v : (s.advance).v = s.v := rfl
@[simp] theorem State.advance_pc : (s.advance).pc = s.pc + 2 := rfl
@[simp] theorem State.advance_index : (s.advance).index = s.index := rfl
@[simp] theorem State.advance_stack : (s.advance).stack = s.stack := rfl
@[simp] theorem State.advance_sp : (s.advance).sp = s.sp := rfl
@[simp] theorem State.advance_dt : (s.advance).dt = s.dt := rfl
@[simp] theorem State.advance_st : (s.advance).st = s.st := rfl
@[simp] theorem State.advance_haltedForKey : (s.advance).haltedForKey = s.haltedForKey := rfl
@[simp] theorem State.advance_needsRedraw : (s.advance).needsRedraw = s.needsRedraw := rfl
@[simp] theorem State.advance_fault : (s.advance).fault = s.fault := rfl
@[simp] theorem State.advance_mem : (s.advance).mem = s.mem := rfl
@[simp] theorem State.advance_fb : (s.advance).fb = s.fb := rfl
@[simp] theorem State.advance_keys : (s.advance).keys = s.keys := rfl
@[simp] theorem State.advance_latch : (s.advance).latch = s.latch := rfl
@[simp] theorem State.advance_timerMode : (s.advance).timerMode = s.timerMode := rfl
@[simp] theorem State.advance_rndCount : (s.advance).rndCount = s.rndCount := rfl
@[simp] theorem State.advance_event : (s.advance).event = s.event := rfl
@[simp] theorem State.advance_stepped : (s.advance).stepped = s.stepped := rfl
@[simp] theorem State.advance_hostEvents : (s.advance).hostEvents = s.hostEvents := rfl

/-! ### `State.skip` -/

@[simp] theorem State.skip_v : (s.skip).v = s.v := rfl
@[simp] theorem State.skip_pc : (s.skip).pc = s.pc + 4 := rfl
@[simp] theorem State.skip_index : (s.skip).index = s.index := rfl
@[simp] theorem State.skip_stack : (s.skip).stack = s.stack := rfl
@[simp] theorem State.skip_sp : (s.skip).sp = s.sp := rfl
@[simp] theorem State.skip_dt : (s.skip).dt = s.dt := rfl
@[simp] theorem State.skip_st : (s.skip).st = s.st := rfl
@[simp] theorem State.skip_haltedForKey : (s.skip).haltedForKey = s.haltedForKey := rfl
@[simp] theorem State.skip_needsRedraw : (s.skip).needsRedraw = s.needsRedraw := rfl
@[simp] theorem State.skip_fault : (s.skip).fault = s.fault := rfl
@[simp] theorem State.skip_mem : (s.skip).mem = s.mem := rfl
@[simp] theorem State.skip_fb : (s.skip).fb = s.fb := rfl
@[simp] theorem State.skip_keys : (s.skip).keys = s.keys := rfl
@[simp] theorem State.skip_latch : (s.skip).latch = s.latch := rfl
@[simp] theorem State.skip_timerMode : (s.skip).timerMode = s.timerMode := rfl
@[simp] theorem State.skip_rndCount : (s.skip).rndCount = s.rndCount := rfl
@[simp] theorem State.skip_event : (s.skip).event = s.event := rfl
@[simp] theorem State.skip_stepped : (s.skip).stepped = s.stepped := rfl
@[simp] theorem State.skip_hostEvents : (s.skip).hostEvents = s.hostEvents := rfl

/-! ### `State.setIndex` -/

@[simp] theorem State.setIndex_v (w : Word) : (s.setIndex w).v = s.v := rfl
@[simp] theorem State.setIndex_pc (w : Word) : (s.setIndex w).pc = s.pc := rfl
@[simp] theorem State.setIndex_index (w : Word) : (s.setIndex w).index = w := rfl
@[simp] theorem State.setIndex_stack (w : Word) : (s.setIndex w).stack = s.stack := rfl
@[simp] theorem State.setIndex_sp (w : Word) : (s.setIndex w).sp = s.sp := rfl
@[simp] theorem State.setIndex_dt (w : Word) : (s.setIndex w).dt = s.dt := rfl
@[simp] theorem State.setIndex_st (w : Word) : (s.setIndex w).st = s.st := rfl
@[simp] theorem State.setIndex_haltedForKey (w : Word) : (s.setIndex w).haltedForKey = s.haltedForKey := rfl
@[simp] theorem State.setIndex_needsRedraw (w : Word) : (s.setIndex w).needsRedraw = s.needsRedraw := rfl
@[simp] theorem State.setIndex_fault (w : Word) : (s.setIndex w).fault = s.fault := rfl
@[simp] theorem State.setIndex_mem (w : Word) : (s.setIndex w).mem = s.mem := rfl
@[simp] theorem State.setIndex_fb (w : Word) : (s.setIndex w).fb = s.fb := rfl
@[simp] theorem State.setIndex_keys (w : Word) : (s.setIndex w).keys = s.keys := rfl
@[simp] theorem State.setIndex_latch (w : Word) : (s.setIndex w).latch = s.latch := rfl
@[simp] theorem State.setIndex_timerMode (w : Word) : (s.setIndex w).timerMode = s.timerMode := rfl
@[simp] theorem State.setIndex_rndCount (w : Word) : (s.setIndex w).rndCount = s.rndCount := rfl
@[simp] theorem State.setIndex_event (w : Word) : (s.setIndex w).event = s.event := rfl
@[simp] theorem State.setIndex_stepped (w : Word) : (s.setIndex w).stepped = s.stepped := rfl
@[simp] theorem State.setIndex_hostEvents (w : Word) : (s.setIndex w).hostEvents = s.hostEvents := rfl

/-! ### `State.markRedraw` -/

@[simp] theorem State.markRedraw_v : (s.markRedraw).v = s.v := rfl
@[simp] theorem State.markRedraw_pc : (s.markRedraw).pc = s.pc := rfl
@[simp] theorem State.markRedraw_index : (s.markRedraw).index = s.index := rfl
@[simp] theorem State.markRedraw_stack : (s.markRedraw).stack = s.stack := rfl
@[simp] theorem State.markRedraw_sp : (s.markRedraw).sp = s.sp := rfl
@[simp] theorem State.markRedraw_dt : (s.markRedraw).dt = s.dt := rfl
@[simp] theorem State.markRedraw_st : (s.markRedraw).st = s.st := rfl
@[simp] theorem State.markRedraw_haltedForKey : (s.markRedraw).haltedForKey = s.haltedForKey := rfl
@[simp] theorem State.markRedraw_needsRedraw : (s.markRedraw).needsRedraw = true := rfl
@[simp] theorem State.markRedraw_fault : (s.markRedraw).fault = s.fault := rfl
@[simp] theorem State.markRedraw_mem : (s.markRedraw).mem = s.mem := rfl
@[simp] theorem State.markRedraw_fb : (s.markRedraw).fb = s.fb := rfl
@[simp] theorem State.markRedraw_keys : (s.markRedraw).keys = s.keys := rfl
@[simp] theorem State.markRedraw_latch : (s.markRedraw).latch = s.latch := rfl
@[simp] theorem State.markRedraw_timerMode : (s.markRedraw).timerMode = s.timerMode := rfl
@[simp] theorem State.markRedraw_rndCount : (s.markRedraw).rndCount = s.rndCount := rfl
@[simp] theorem State.markRedraw_event : (s.markRedraw).event = s.event := rfl
@[simp] theorem State.markRedraw_stepped : (s.markRedraw).stepped = s.stepped := rfl
@[simp] theorem State.markRedraw_hostEvents : (s.markRedraw).hostEvents = s.hostEvents := rfl

/-! ### `State.redrawAck` -/

@[simp] theorem State.redrawAck_v : (s.redrawAck).v = s.v := rfl
@[simp] theorem State.redrawAck_pc : (s.redrawAck).pc = s.pc := rfl
@[simp] theorem State.redrawAck_index : (s.redrawAck).index = s.index := rfl
@[simp] theorem State.redrawAck_stack : (s.redrawAck).stack = s.stack := rfl
@[simp] theorem State.redrawAck_sp : (s.redrawAck).sp = s.sp := rfl
@[simp] theorem State.redrawAck_dt : (s.redrawAck).dt = s.dt := rfl
@[simp] theorem State.redrawAck_st : (s.redrawAck).st = s.st := rfl
@[simp] theorem State.redrawAck_haltedForKey : (s.redrawAck).haltedForKey = s.haltedForKey := rfl
@[simp] theorem State.redrawAck_needsRedraw : (s.redrawAck).needsRedraw = false := rfl
@[simp] theorem State.redrawAck_fault : (s.redrawAck).fault = s.fault := rfl
@[simp] theorem State.redrawAck_mem : (s.redrawAck).mem = s.mem := rfl
@[simp] theorem State.redrawAck_fb : (s.redrawAck).fb = s.fb := rfl
@[simp] theorem State.redrawAck_keys : (s.redrawAck).keys = s.keys := rfl
@[simp] theorem State.redrawAck_latch : (s.redrawAck).latch = s.latch := rfl
@[simp] theorem State.redrawAck_timerMode : (s.redrawAck).timerMode = s.timerMode := rfl
@[simp] theorem State.redrawAck_rndCount : (s.redrawAck).rndCount = s.rndCount := rfl
@[simp] theorem State.redrawAck_event : (s.redrawAck).event = s.event := rfl
@[simp] theorem State.redrawAck_stepped : (s.redrawAck).stepped = s.stepped := rfl
@[simp] theorem State.redrawAck_hostEvents : (s.redrawAck).hostEvents = s.hostEvents := rfl

/-! ### `State.raise` -/

@[simp] theorem State.raise_v (f : FaultLatch) : (s.raise f).v = s.v := rfl
@[simp] theorem State.raise_pc (f : FaultLatch) : (s.raise f).pc = s.pc := rfl
@[simp] theorem State.raise_index (f : FaultLatch) : (s.raise f).index = s.index := rfl
@[simp] theorem State.raise_stack (f : FaultLatch) : (s.raise f).stack = s.stack := rfl
@[simp] theorem State.raise_sp (f : FaultLatch) : (s.raise f).sp = s.sp := rfl
@[simp] theorem State.raise_dt (f : FaultLatch) : (s.raise f).dt = s.dt := rfl
@[simp] theorem State.raise_st (f : FaultLatch) : (s.raise f).st = s.st := rfl
@[simp] theorem State.raise_haltedForKey (f : FaultLatch) : (s.raise f).haltedForKey = s.haltedForKey := rfl
@[simp] theorem State.raise_needsRedraw (f : FaultLatch) : (s.raise f).needsRedraw = s.needsRedraw := rfl
@[simp] theorem State.raise_fault (f : FaultLatch) : (s.raise f).fault = f := rfl
@[simp] theorem State.raise_mem (f : FaultLatch) : (s.raise f).mem = s.mem := rfl
@[simp] theorem State.raise_fb (f : FaultLatch) : (s.raise f).fb = s.fb := rfl
@[simp] theorem State.raise_keys (f : FaultLatch) : (s.raise f).keys = s.keys := rfl
@[simp] theorem State.raise_latch (f : FaultLatch) : (s.raise f).latch = s.latch := rfl
@[simp] theorem State.raise_timerMode (f : FaultLatch) : (s.raise f).timerMode = s.timerMode := rfl
@[simp] theorem State.raise_rndCount (f : FaultLatch) : (s.raise f).rndCount = s.rndCount := rfl
@[simp] theorem State.raise_event (f : FaultLatch) : (s.raise f).event = s.event := rfl
@[simp] theorem State.raise_stepped (f : FaultLatch) : (s.raise f).stepped = s.stepped := rfl
@[simp] theorem State.raise_hostEvents (f : FaultLatch) : (s.raise f).hostEvents = s.hostEvents := rfl

/-! ### `State.timerUpdate` -/

@[simp] theorem State.timerUpdate_v : (s.timerUpdate).v = s.v := rfl
@[simp] theorem State.timerUpdate_pc : (s.timerUpdate).pc = s.pc := rfl
@[simp] theorem State.timerUpdate_index : (s.timerUpdate).index = s.index := rfl
@[simp] theorem State.timerUpdate_stack : (s.timerUpdate).stack = s.stack := rfl
@[simp] theorem State.timerUpdate_sp : (s.timerUpdate).sp = s.sp := rfl
@[simp] theorem State.timerUpdate_dt : (s.timerUpdate).dt = countDown s.dt := rfl
@[simp] theorem State.timerUpdate_st : (s.timerUpdate).st = countDown s.st := rfl
@[simp] theorem State.timerUpdate_haltedForKey : (s.timerUpdate).haltedForKey = s.haltedForKey := rfl
@[simp] theorem State.timerUpdate_needsRedraw : (s.timerUpdate).needsRedraw = s.needsRedraw := rfl
@[simp] theorem State.timerUpdate_fault : (s.timerUpdate).fault = s.fault := rfl
@[simp] theorem State.timerUpdate_mem : (s.timerUpdate).mem = s.mem := rfl
@[simp] theorem State.timerUpdate_fb : (s.timerUpdate).fb = s.fb := rfl
@[simp] theorem State.timerUpdate_keys : (s.timerUpdate).keys = s.keys := rfl
@[simp] theorem State.timerUpdate_latch : (s.timerUpdate).latch = s.latch := rfl
@[simp] theorem State.timerUpdate_timerMode : (s.timerUpdate).timerMode = s.timerMode := rfl
@[simp] theorem State.timerUpdate_rndCount : (s.timerUpdate).rndCount = s.rndCount := rfl
@[simp] theorem State.timerUpdate_event : (s.timerUpdate).event = s.event := rfl
@[simp] theorem State.timerUpdate_stepped : (s.timerUpdate).stepped = s.stepped := rfl
@[simp] theorem State.timerUpdate_hostEvents : (s.timerUpdate).hostEvents = s.hostEvents := rfl

/-! ### `State.keyPress` -/

@[simp] theorem State.keyPress_v (k : Key) : (s.keyPress k).v = s.v := rfl
@[simp] theorem State.keyPress_pc (k : Key) : (s.keyPress k).pc = s.pc := rfl
@[simp] theorem State.keyPress_index (k : Key) : (s.keyPress k).index = s.index := rfl
@[simp] theorem State.keyPress_stack (k : Key) : (s.keyPress k).stack = s.stack := rfl
@[simp] theorem State.keyPress_sp (k : Key) : (s.keyPress k).sp = s.sp := rfl
@[simp] theorem State.keyPress_dt (k : Key) : (s.keyPress k).dt = s.dt := rfl
@[simp] theorem State.keyPress_st (k : Key) : (s.keyPress k).st = s.st := rfl
@[simp] theorem State.keyPress_haltedForKey (k : Key) : (s.keyPress k).haltedForKey = s.haltedForKey := rfl
@[simp] theorem State.keyPress_needsRedraw (k : Key) : (s.keyPress k).needsRedraw = s.needsRedraw := rfl
@[simp] theorem State.keyPress_fault (k : Key) : (s.keyPress k).fault = s.fault := rfl
@[simp] theorem State.keyPress_mem (k : Key) : (s.keyPress k).mem = s.mem := rfl
@[simp] theorem State.keyPress_fb (k : Key) : (s.keyPress k).fb = s.fb := rfl
@[simp] theorem State.keyPress_keys (k : Key) : (s.keyPress k).keys = s.keys.set k.toNat true k.isLt := rfl
@[simp] theorem State.keyPress_latch (k : Key) : (s.keyPress k).latch = s.latch := rfl
@[simp] theorem State.keyPress_timerMode (k : Key) : (s.keyPress k).timerMode = s.timerMode := rfl
@[simp] theorem State.keyPress_rndCount (k : Key) : (s.keyPress k).rndCount = s.rndCount := rfl
@[simp] theorem State.keyPress_event (k : Key) : (s.keyPress k).event = s.event := rfl
@[simp] theorem State.keyPress_stepped (k : Key) : (s.keyPress k).stepped = s.stepped := rfl
@[simp] theorem State.keyPress_hostEvents (k : Key) : (s.keyPress k).hostEvents = s.hostEvents := rfl

/-! ### `State.keyRelease` -/

@[simp] theorem State.keyRelease_v (k : Key) : (s.keyRelease k).v = s.v := rfl
@[simp] theorem State.keyRelease_pc (k : Key) : (s.keyRelease k).pc = s.pc := rfl
@[simp] theorem State.keyRelease_index (k : Key) : (s.keyRelease k).index = s.index := rfl
@[simp] theorem State.keyRelease_stack (k : Key) : (s.keyRelease k).stack = s.stack := rfl
@[simp] theorem State.keyRelease_sp (k : Key) : (s.keyRelease k).sp = s.sp := rfl
@[simp] theorem State.keyRelease_dt (k : Key) : (s.keyRelease k).dt = s.dt := rfl
@[simp] theorem State.keyRelease_st (k : Key) : (s.keyRelease k).st = s.st := rfl
@[simp] theorem State.keyRelease_haltedForKey (k : Key) : (s.keyRelease k).haltedForKey = s.haltedForKey := rfl
@[simp] theorem State.keyRelease_needsRedraw (k : Key) : (s.keyRelease k).needsRedraw = s.needsRedraw := rfl
@[simp] theorem State.keyRelease_fault (k : Key) : (s.keyRelease k).fault = s.fault := rfl
@[simp] theorem State.keyRelease_mem (k : Key) : (s.keyRelease k).mem = s.mem := rfl
@[simp] theorem State.keyRelease_fb (k : Key) : (s.keyRelease k).fb = s.fb := rfl
@[simp] theorem State.keyRelease_keys (k : Key) : (s.keyRelease k).keys = s.keys.set k.toNat false k.isLt := rfl
@[simp] theorem State.keyRelease_latch (k : Key) : (s.keyRelease k).latch = if s.isPressed k then some k else s.latch := rfl
@[simp] theorem State.keyRelease_timerMode (k : Key) : (s.keyRelease k).timerMode = s.timerMode := rfl
@[simp] theorem State.keyRelease_rndCount (k : Key) : (s.keyRelease k).rndCount = s.rndCount := rfl
@[simp] theorem State.keyRelease_event (k : Key) : (s.keyRelease k).event = s.event := rfl
@[simp] theorem State.keyRelease_stepped (k : Key) : (s.keyRelease k).stepped = s.stepped := rfl
@[simp] theorem State.keyRelease_hostEvents (k : Key) : (s.keyRelease k).hostEvents = s.hostEvents := rfl

/-! ### `State.consumeRnd` -/

@[simp] theorem State.consumeRnd_v : (s.consumeRnd).v = s.v := rfl
@[simp] theorem State.consumeRnd_pc : (s.consumeRnd).pc = s.pc := rfl
@[simp] theorem State.consumeRnd_index : (s.consumeRnd).index = s.index := rfl
@[simp] theorem State.consumeRnd_stack : (s.consumeRnd).stack = s.stack := rfl
@[simp] theorem State.consumeRnd_sp : (s.consumeRnd).sp = s.sp := rfl
@[simp] theorem State.consumeRnd_dt : (s.consumeRnd).dt = s.dt := rfl
@[simp] theorem State.consumeRnd_st : (s.consumeRnd).st = s.st := rfl
@[simp] theorem State.consumeRnd_haltedForKey : (s.consumeRnd).haltedForKey = s.haltedForKey := rfl
@[simp] theorem State.consumeRnd_needsRedraw : (s.consumeRnd).needsRedraw = s.needsRedraw := rfl
@[simp] theorem State.consumeRnd_fault : (s.consumeRnd).fault = s.fault := rfl
@[simp] theorem State.consumeRnd_mem : (s.consumeRnd).mem = s.mem := rfl
@[simp] theorem State.consumeRnd_fb : (s.consumeRnd).fb = s.fb := rfl
@[simp] theorem State.consumeRnd_keys : (s.consumeRnd).keys = s.keys := rfl
@[simp] theorem State.consumeRnd_latch : (s.consumeRnd).latch = s.latch := rfl
@[simp] theorem State.consumeRnd_timerMode : (s.consumeRnd).timerMode = s.timerMode := rfl
@[simp] theorem State.consumeRnd_rndCount : (s.consumeRnd).rndCount = s.rndCount + 1 := rfl
@[simp] theorem State.consumeRnd_event : (s.consumeRnd).event = s.event := rfl
@[simp] theorem State.consumeRnd_stepped : (s.consumeRnd).stepped = s.stepped := rfl
@[simp] theorem State.consumeRnd_hostEvents : (s.consumeRnd).hostEvents = s.hostEvents := rfl

/-! ### `State.placeWord` -/

@[simp] theorem State.placeWord_v (op : Word) : (s.placeWord op).v = s.v := rfl
@[simp] theorem State.placeWord_pc (op : Word) : (s.placeWord op).pc = s.pc := rfl
@[simp] theorem State.placeWord_index (op : Word) : (s.placeWord op).index = s.index := rfl
@[simp] theorem State.placeWord_stack (op : Word) : (s.placeWord op).stack = s.stack := rfl
@[simp] theorem State.placeWord_sp (op : Word) : (s.placeWord op).sp = s.sp := rfl
@[simp] theorem State.placeWord_dt (op : Word) : (s.placeWord op).dt = s.dt := rfl
@[simp] theorem State.placeWord_st (op : Word) : (s.placeWord op).st = s.st := rfl
@[simp] theorem State.placeWord_haltedForKey (op : Word) : (s.placeWord op).haltedForKey = s.haltedForKey := rfl
@[simp] theorem State.placeWord_needsRedraw (op : Word) : (s.placeWord op).needsRedraw = s.needsRedraw := rfl
@[simp] theorem State.placeWord_fault (op : Word) : (s.placeWord op).fault = s.fault := rfl
@[simp] theorem State.placeWord_mem (op : Word) : (s.placeWord op).mem = s.mem.pokeBytes s.pc.toNat [highByte op, lowByte op] := rfl
@[simp] theorem State.placeWord_fb (op : Word) : (s.placeWord op).fb = s.fb := rfl
@[simp] theorem State.placeWord_keys (op : Word) : (s.placeWord op).keys = s.keys := rfl
@[simp] theorem State.placeWord_latch (op : Word) : (s.placeWord op).latch = s.latch := rfl
@[simp] theorem State.placeWord_timerMode (op : Word) : (s.placeWord op).timerMode = s.timerMode := rfl
@[simp] theorem State.placeWord_rndCount (op : Word) : (s.placeWord op).rndCount = s.rndCount := rfl
@[simp] theorem State.placeWord_event (op : Word) : (s.placeWord op).event = s.event := rfl
@[simp] theorem State.placeWord_stepped (op : Word) : (s.placeWord op).stepped = s.stepped := rfl
@[simp] theorem State.placeWord_hostEvents (op : Word) : (s.placeWord op).hostEvents = s.hostEvents := rfl

/-! ### `State.load` -/

@[simp] theorem State.load_v (bs : List Byte) : (s.load bs).v = s.v := rfl
@[simp] theorem State.load_pc (bs : List Byte) : (s.load bs).pc = s.pc := rfl
@[simp] theorem State.load_index (bs : List Byte) : (s.load bs).index = s.index := rfl
@[simp] theorem State.load_stack (bs : List Byte) : (s.load bs).stack = s.stack := rfl
@[simp] theorem State.load_sp (bs : List Byte) : (s.load bs).sp = s.sp := rfl
@[simp] theorem State.load_dt (bs : List Byte) : (s.load bs).dt = s.dt := rfl
@[simp] theorem State.load_st (bs : List Byte) : (s.load bs).st = s.st := rfl
@[simp] theorem State.load_haltedForKey (bs : List Byte) : (s.load bs).haltedForKey = s.haltedForKey := rfl
@[simp] theorem State.load_needsRedraw (bs : List Byte) : (s.load bs).needsRedraw = s.needsRedraw := rfl
@[simp] theorem State.load_fault (bs : List Byte) : (s.load bs).fault = s.fault := rfl
@[simp] theorem State.load_mem (bs : List Byte) : (s.load bs).mem = s.mem.pokeBytes Config.progBase bs := rfl
@[simp] theorem State.load_fb (bs : List Byte) : (s.load bs).fb = s.fb := rfl
@[simp] theorem State.load_keys (bs : List Byte) : (s.load bs).keys = s.keys := rfl
@[simp] theorem State.load_latch (bs : List Byte) : (s.load bs).latch = s.latch := rfl
@[simp] theorem State.load_timerMode (bs : List Byte) : (s.load bs).timerMode = s.timerMode := rfl
@[simp] theorem State.load_rndCount (bs : List Byte) : (s.load bs).rndCount = s.rndCount := rfl
@[simp] theorem State.load_event (bs : List Byte) : (s.load bs).event = s.event := rfl
@[simp] theorem State.load_stepped (bs : List Byte) : (s.load bs).stepped = s.stepped := rfl
@[simp] theorem State.load_hostEvents (bs : List Byte) : (s.load bs).hostEvents = s.hostEvents := rfl

/-! ### `State.report` -/

@[simp] theorem State.report_v (e : UnknownOpcode) : (s.report e).v = s.v := rfl
@[simp] theorem State.report_pc (e : UnknownOpcode) : (s.report e).pc = s.pc := rfl
@[simp] theorem State.report_index (e : UnknownOpcode) : (s.report e).index = s.index := rfl
@[simp] theorem State.report_stack (e : UnknownOpcode) : (s.report e).stack = s.stack := rfl
@[simp] theorem State.report_sp (e : UnknownOpcode) : (s.report e).sp = s.sp := rfl
@[simp] theorem State.report_dt (e : UnknownOpcode) : (s.report e).dt = s.dt := rfl
@[simp] theorem State.report_st (e : UnknownOpcode) : (s.report e).st = s.st := rfl
@[simp] theorem State.report_haltedForKey (e : UnknownOpcode) : (s.report e).haltedForKey = s.haltedForKey := rfl
@[simp] theorem State.report_needsRedraw (e : UnknownOpcode) : (s.report e).needsRedraw = s.needsRedraw := rfl
@[simp] theorem State.report_fault (e : UnknownOpcode) : (s.report e).fault = s.fault := rfl
@[simp] theorem State.report_mem (e : UnknownOpcode) : (s.report e).mem = s.mem := rfl
@[simp] theorem State.report_fb (e : UnknownOpcode) : (s.report e).fb = s.fb := rfl
@[simp] theorem State.report_keys (e : UnknownOpcode) : (s.report e).keys = s.keys := rfl
@[simp] theorem State.report_latch (e : UnknownOpcode) : (s.report e).latch = s.latch := rfl
@[simp] theorem State.report_timerMode (e : UnknownOpcode) : (s.report e).timerMode = s.timerMode := rfl
@[simp] theorem State.report_rndCount (e : UnknownOpcode) : (s.report e).rndCount = s.rndCount := rfl
@[simp] theorem State.report_event (e : UnknownOpcode) : (s.report e).event = some e := rfl
@[simp] theorem State.report_stepped (e : UnknownOpcode) : (s.report e).stepped = s.stepped := rfl
@[simp] theorem State.report_hostEvents (e : UnknownOpcode) : (s.report e).hostEvents = s.hostEvents := rfl

/-! ### `State.markStepped` -/

@[simp] theorem State.markStepped_v : (s.markStepped).v = s.v := rfl
@[simp] theorem State.markStepped_pc : (s.markStepped).pc = s.pc := rfl
@[simp] theorem State.markStepped_index : (s.markStepped).index = s.index := rfl
@[simp] theorem State.markStepped_stack : (s.markStepped).stack = s.stack := rfl
@[simp] theorem State.markStepped_sp : (s.markStepped).sp = s.sp := rfl
@[simp] theorem State.markStepped_dt : (s.markStepped).dt = s.dt := rfl
@[simp] theorem State.markStepped_st : (s.markStepped).st = s.st := rfl
@[simp] theorem State.markStepped_haltedForKey : (s.markStepped).haltedForKey = s.haltedForKey := rfl
@[simp] theorem State.markStepped_needsRedraw : (s.markStepped).needsRedraw = s.needsRedraw := rfl
@[simp] theorem State.markStepped_fault : (s.markStepped).fault = s.fault := rfl
@[simp] theorem State.markStepped_mem : (s.markStepped).mem = s.mem := rfl
@[simp] theorem State.markStepped_fb : (s.markStepped).fb = s.fb := rfl
@[simp] theorem State.markStepped_keys : (s.markStepped).keys = s.keys := rfl
@[simp] theorem State.markStepped_latch : (s.markStepped).latch = s.latch := rfl
@[simp] theorem State.markStepped_timerMode : (s.markStepped).timerMode = s.timerMode := rfl
@[simp] theorem State.markStepped_rndCount : (s.markStepped).rndCount = s.rndCount := rfl
@[simp] theorem State.markStepped_event : (s.markStepped).event = s.event := rfl
@[simp] theorem State.markStepped_stepped : (s.markStepped).stepped = true := rfl
@[simp] theorem State.markStepped_hostEvents : (s.markStepped).hostEvents = s.hostEvents := rfl

/-! ### `State.beginEvent` -/

@[simp] theorem State.beginEvent_v : (s.beginEvent).v = s.v := rfl
@[simp] theorem State.beginEvent_pc : (s.beginEvent).pc = s.pc := rfl
@[simp] theorem State.beginEvent_index : (s.beginEvent).index = s.index := rfl
@[simp] theorem State.beginEvent_stack : (s.beginEvent).stack = s.stack := rfl
@[simp] theorem State.beginEvent_sp : (s.beginEvent).sp = s.sp := rfl
@[simp] theorem State.beginEvent_dt : (s.beginEvent).dt = s.dt := rfl
@[simp] theorem State.beginEvent_st : (s.beginEvent).st = s.st := rfl
@[simp] theorem State.beginEvent_haltedForKey : (s.beginEvent).haltedForKey = s.haltedForKey := rfl
@[simp] theorem State.beginEvent_needsRedraw : (s.beginEvent).needsRedraw = s.needsRedraw := rfl
@[simp] theorem State.beginEvent_fault : (s.beginEvent).fault = s.fault := rfl
@[simp] theorem State.beginEvent_mem : (s.beginEvent).mem = s.mem := rfl
@[simp] theorem State.beginEvent_fb : (s.beginEvent).fb = s.fb := rfl
@[simp] theorem State.beginEvent_keys : (s.beginEvent).keys = s.keys := rfl
@[simp] theorem State.beginEvent_latch : (s.beginEvent).latch = s.latch := rfl
@[simp] theorem State.beginEvent_timerMode : (s.beginEvent).timerMode = s.timerMode := rfl
@[simp] theorem State.beginEvent_rndCount : (s.beginEvent).rndCount = s.rndCount := rfl
@[simp] theorem State.beginEvent_event : (s.beginEvent).event = none := rfl
@[simp] theorem State.beginEvent_stepped : (s.beginEvent).stepped = s.stepped := rfl
@[simp] theorem State.beginEvent_hostEvents : (s.beginEvent).hostEvents = s.hostEvents.tail := rfl

/-! ### `State.setWithFlag`: two register writes, the flag last -/

@[simp] theorem State.setWithFlag_pc (x : Nibble) (b : Byte) (g : Bool) : (s.setWithFlag x b g).pc = s.pc := rfl
@[simp] theorem State.setWithFlag_index (x : Nibble) (b : Byte) (g : Bool) : (s.setWithFlag x b g).index = s.index := rfl
@[simp] theorem State.setWithFlag_stack (x : Nibble) (b : Byte) (g : Bool) : (s.setWithFlag x b g).stack = s.stack := rfl
@[simp] theorem State.setWithFlag_sp (x : Nibble) (b : Byte) (g : Bool) : (s.setWithFlag x b g).sp = s.sp := rfl
@[simp] theorem State.setWithFlag_dt (x : Nibble) (b : Byte) (g : Bool) : (s.setWithFlag x b g).dt = s.dt := rfl
@[simp] theorem State.setWithFlag_st (x : Nibble) (b : Byte) (g : Bool) : (s.setWithFlag x b g).st = s.st := rfl
@[simp] theorem State.setWithFlag_haltedForKey (x : Nibble) (b : Byte) (g : Bool) : (s.setWithFlag x b g).haltedForKey = s.haltedForKey := rfl
@[simp] theorem State.setWithFlag_needsRedraw (x : Nibble) (b : Byte) (g : Bool) : (s.setWithFlag x b g).needsRedraw = s.needsRedraw := rfl
@[simp] theorem State.setWithFlag_fault (x : Nibble) (b : Byte) (g : Bool) : (s.setWithFlag x b g).fault = s.fault := rfl
@[simp] theorem State.setWithFlag_mem (x : Nibble) (b : Byte) (g : Bool) : (s.setWithFlag x b g).mem = s.mem := rfl
@[simp] theorem State.setWithFlag_fb (x : Nibble) (b : Byte) (g : Bool) : (s.setWithFlag x b g).fb = s.fb := rfl
@[simp] theorem State.setWithFlag_keys (x : Nibble) (b : Byte) (g : Bool) : (s.setWithFlag x b g).keys = s.keys := rfl
@[simp] theorem State.setWithFlag_latch (x : Nibble) (b : Byte) (g : Bool) : (s.setWithFlag x b g).latch = s.latch := rfl
@[simp] theorem State.setWithFlag_timerMode (x : Nibble) (b : Byte) (g : Bool) : (s.setWithFlag x b g).timerMode = s.timerMode := rfl
@[simp] theorem State.setWithFlag_rndCount (x : Nibble) (b : Byte) (g : Bool) : (s.setWithFlag x b g).rndCount = s.rndCount := rfl
@[simp] theorem State.setWithFlag_event (x : Nibble) (b : Byte) (g : Bool) : (s.setWithFlag x b g).event = s.event := rfl
@[simp] theorem State.setWithFlag_stepped (x : Nibble) (b : Byte) (g : Bool) : (s.setWithFlag x b g).stepped = s.stepped := rfl
@[simp] theorem State.setWithFlag_hostEvents (x : Nibble) (b : Byte) (g : Bool) : (s.setWithFlag x b g).hostEvents = s.hostEvents := rfl

/-! ### `State.skipIf`: only PC, by the condition -/

@[simp] theorem State.skipIf_pc (c : Bool) : (s.skipIf c).pc = if c then s.pc + 4 else s.pc + 2 := by
  cases c <;> rfl
@[simp] theorem State.skipIf_v (c : Bool) : (s.skipIf c).v = s.v := by cases c <;> rfl
@[simp] theorem State.skipIf_index (c : Bool) : (s.skipIf c).index = s.index := by cases c <;> rfl
@[simp] theorem State.skipIf_stack (c : Bool) : (s.skipIf c).stack = s.stack := by cases c <;> rfl
@[simp] theorem State.skipIf_sp (c : Bool) : (s.skipIf c).sp = s.sp := by cases c <;> rfl
@[simp] theorem State.skipIf_dt (c : Bool) : (s.skipIf c).dt = s.dt := by cases c <;> rfl
@[simp] theorem State.skipIf_st (c : Bool) : (s.skipIf c).st = s.st := by cases c <;> rfl
@[simp] theorem State.skipIf_haltedForKey (c : Bool) : (s.skipIf c).haltedForKey = s.haltedForKey := by cases c <;> rfl
@[simp] theorem State.skipIf_needsRedraw (c : Bool) : (s.skipIf c).needsRedraw = s.needsRedraw := by cases c <;> rfl
@[simp] theorem State.skipIf_fault (c : Bool) : (s.skipIf c).fault = s.fault := by cases c <;> rfl
@[simp] theorem State.skipIf_mem (c : Bool) : (s.skipIf c).mem = s.mem := by cases c <;> rfl
@[simp] theorem State.skipIf_fb (c : Bool) : (s.skipIf c).fb = s.fb := by cases c <;> rfl
@[simp] theorem State.skipIf_keys (c : Bool) : (s.skipIf c).keys = s.keys := by cases c <;> rfl
@[simp] theorem State.skipIf_latch (c : Bool) : (s.skipIf c).latch = s.latch := by cases c <;> rfl
@[simp] theorem State.skipIf_timerMode (c : Bool) : (s.skipIf c).timerMode = s.timerMode := by cases c <;> rfl
@[simp] theorem State.skipIf_rndCount (c : Bool) : (s.skipIf c).rndCount = s.rndCount := by cases c <;> rfl
@[simp] theorem State.skipIf_event (c : Bool) : (s.skipIf c).event = s.event := by cases c <;> rfl
@[simp] theorem State.skipIf_stepped (c : Bool) : (s.skipIf c).stepped = s.stepped := by cases c <;> rfl
@[simp] theorem State.skipIf_hostEvents (c : Bool) : (s.skipIf c).hostEvents = s.hostEvents := by cases c <;> rfl

/-! ### `State.doReset`: the fields that are not the reset state's -/

@[simp] theorem State.doReset_v : s.doReset.v = State.reset.v := rfl
@[simp] theorem State.doReset_pc : s.doReset.pc = State.reset.pc := rfl
@[simp] theorem State.doReset_index : s.doReset.index = State.reset.index := rfl
@[simp] theorem State.doReset_stack : s.doReset.stack = State.reset.stack := rfl
@[simp] theorem State.doReset_sp : s.doReset.sp = State.reset.sp := rfl
@[simp] theorem State.doReset_dt : s.doReset.dt = State.reset.dt := rfl
@[simp] theorem State.doReset_st : s.doReset.st = State.reset.st := rfl
@[simp] theorem State.doReset_haltedForKey : s.doReset.haltedForKey = State.reset.haltedForKey := rfl
@[simp] theorem State.doReset_needsRedraw : s.doReset.needsRedraw = State.reset.needsRedraw := rfl
@[simp] theorem State.doReset_fault : s.doReset.fault = State.reset.fault := rfl
@[simp] theorem State.doReset_mem : s.doReset.mem = s.mem.pokeBytes Config.fontBase fontTable := by
  simp only [State.doReset]
@[simp] theorem State.doReset_fb : s.doReset.fb = State.reset.fb := rfl
@[simp] theorem State.doReset_keys : s.doReset.keys = State.reset.keys := rfl
@[simp] theorem State.doReset_latch : s.doReset.latch = State.reset.latch := rfl
@[simp] theorem State.doReset_timerMode : s.doReset.timerMode = s.timerMode := rfl
@[simp] theorem State.doReset_rndCount : s.doReset.rndCount = s.rndCount := rfl
@[simp] theorem State.doReset_event : s.doReset.event = State.reset.event := rfl
@[simp] theorem State.doReset_stepped : s.doReset.stepped = State.reset.stepped := rfl
@[simp] theorem State.doReset_hostEvents : s.doReset.hostEvents = s.hostEvents := rfl

/-! ### `State.endOfStep`: the timers alone -/

@[simp] theorem State.endOfStep_v : s.endOfStep.v = s.v := by
  unfold State.endOfStep; split <;> rfl
@[simp] theorem State.endOfStep_pc : s.endOfStep.pc = s.pc := by
  unfold State.endOfStep; split <;> rfl
@[simp] theorem State.endOfStep_index : s.endOfStep.index = s.index := by
  unfold State.endOfStep; split <;> rfl
@[simp] theorem State.endOfStep_stack : s.endOfStep.stack = s.stack := by
  unfold State.endOfStep; split <;> rfl
@[simp] theorem State.endOfStep_sp : s.endOfStep.sp = s.sp := by
  unfold State.endOfStep; split <;> rfl
@[simp] theorem State.endOfStep_haltedForKey : s.endOfStep.haltedForKey = s.haltedForKey := by
  unfold State.endOfStep; split <;> rfl
@[simp] theorem State.endOfStep_needsRedraw : s.endOfStep.needsRedraw = s.needsRedraw := by
  unfold State.endOfStep; split <;> rfl
@[simp] theorem State.endOfStep_fault : s.endOfStep.fault = s.fault := by
  unfold State.endOfStep; split <;> rfl
@[simp] theorem State.endOfStep_mem : s.endOfStep.mem = s.mem := by
  unfold State.endOfStep; split <;> rfl
@[simp] theorem State.endOfStep_fb : s.endOfStep.fb = s.fb := by
  unfold State.endOfStep; split <;> rfl
@[simp] theorem State.endOfStep_keys : s.endOfStep.keys = s.keys := by
  unfold State.endOfStep; split <;> rfl
@[simp] theorem State.endOfStep_latch : s.endOfStep.latch = s.latch := by
  unfold State.endOfStep; split <;> rfl
@[simp] theorem State.endOfStep_timerMode : s.endOfStep.timerMode = s.timerMode := by
  unfold State.endOfStep; split <;> rfl
@[simp] theorem State.endOfStep_rndCount : s.endOfStep.rndCount = s.rndCount := by
  unfold State.endOfStep; split <;> rfl
@[simp] theorem State.endOfStep_event : s.endOfStep.event = s.event := by
  unfold State.endOfStep; split <;> rfl
@[simp] theorem State.endOfStep_stepped : s.endOfStep.stepped = s.stepped := by
  unfold State.endOfStep; split <;> rfl
@[simp] theorem State.endOfStep_hostEvents : s.endOfStep.hostEvents = s.hostEvents := by
  unfold State.endOfStep; split <;> rfl

end Sys2Proof.Machine
end

