-- ==== Sys2Proof/Laws/Ops.lean ====
section
/-! SUPPORT. What each shared operation over registers, stack, keypad, timers and fetch can do, said once. -/

namespace Sys2Proof.Machine

/-! ## Registers (spec 10_state.md R20) -/

/-- Everything a register write can do to what is read. -/
theorem State.reg_setReg (s : State) (x j : Nibble) (b : Byte) :
    (s.setReg x b).reg j = if j = x then b else s.reg j := by
  unfold State.reg
  by_cases h : j = x
  · subst h; simp
  · have : x.toNat ≠ j.toNat := fun e => h (BitVec.eq_of_toNat_eq e.symm)
    simp [this, h]

/-- States with the same registers read the same. -/
theorem State.reg_congr {s t : State} (h : t.v = s.v) (j : Nibble) : t.reg j = s.reg j := by
  unfold State.reg; simp [h]

@[simp] theorem State.reg_setPc (s : State) (w : Word) (j : Nibble) : (s.setPc w).reg j = s.reg j := rfl
@[simp] theorem State.reg_advance (s : State) (j : Nibble) : s.advance.reg j = s.reg j := rfl
@[simp] theorem State.reg_skip (s : State) (j : Nibble) : s.skip.reg j = s.reg j := rfl
@[simp] theorem State.reg_setIndex (s : State) (w : Word) (j : Nibble) :
    (s.setIndex w).reg j = s.reg j := rfl
@[simp] theorem State.reg_markRedraw (s : State) (j : Nibble) : s.markRedraw.reg j = s.reg j := rfl
@[simp] theorem State.reg_raise (s : State) (f : FaultLatch) (j : Nibble) :
    (s.raise f).reg j = s.reg j := rfl
@[simp] theorem State.reg_timerUpdate (s : State) (j : Nibble) : s.timerUpdate.reg j = s.reg j := rfl
@[simp] theorem State.reg_consumeRnd (s : State) (j : Nibble) : s.consumeRnd.reg j = s.reg j := rfl
@[simp] theorem State.reg_skipIf (s : State) (c : Bool) (j : Nibble) : (s.skipIf c).reg j = s.reg j := by
  cases c <;> rfl

/-- Everything the flag-writing pair of writes can do to what is read (42_alu.md R154): VF holds the flag
whatever `x` is, `V[x]` the result unless it is VF, every other register stays. -/
theorem State.reg_setWithFlag (s : State) (x j : Nibble) (b : Byte) (g : Bool) :
    (s.setWithFlag x b g).reg j =
      if j = vf then flagByte g else if j = x then b else s.reg j := by
  unfold State.setWithFlag
  rw [State.reg_setReg, State.reg_setReg]

/-! ## Stack (10_state.md R25) -/

/-- Everything a push can answer. -/
theorem State.push_cases (s : State) (w : Word) :
    (s.sp.val = Config.stackDepth ∧ s.push w = none) ∨
    ∃ h : s.sp.val < Config.stackDepth,
      s.push w = some { s with stack := s.stack.set s.sp.val w h
                               sp := ⟨s.sp.val + 1, Nat.succ_lt_succ h⟩ } := by
  unfold State.push
  by_cases h : s.sp.val < Config.stackDepth
  · exact .inr ⟨h, by rw [dif_pos h]⟩
  · have full : s.sp.val = 16 := by
      simp only [Config.stackDepth] at h
      omega
    exact .inl ⟨full, by rw [dif_neg h]⟩

/-- Everything a pop can answer. -/
theorem State.pop_cases (s : State) :
    (s.sp.val = 0 ∧ s.pop = none) ∨
    ∃ (_ : 0 < s.sp.val) (below : s.sp.val - 1 < Config.stackDepth),
      s.pop = some (s.stack[s.sp.val - 1]'below,
        { s with sp := ⟨s.sp.val - 1, Nat.lt_succ_of_lt below⟩ }) := by
  unfold State.pop
  by_cases h : 0 < s.sp.val
  · have below : s.sp.val - 1 < 16 := by omega
    exact .inr ⟨h, below, by rw [dif_pos h]⟩
  · exact .inl ⟨by omega, by rw [dif_neg h]⟩

/-! ## Timers (60_exceptions.md R261) -/

/-- One count down is one less, floored at 0. -/
theorem countDown_toNat (t : Byte) : (countDown t).toNat = t.toNat - 1 := by
  unfold countDown
  by_cases h : t = 0
  · subst h; rfl
  · have : t.toNat ≠ 0 := fun e => h (BitVec.eq_of_toNat_eq (by simpa using e))
    rw [if_neg h, BitVec.toNat_sub]
    have := t.isLt
    simp
    omega

/-! ## Keypad (45_keypad_timer.md R221, R222) -/

/-- Everything a key press can do to what is read. -/
theorem State.isPressed_keyPress (s : State) (k j : Key) :
    (s.keyPress k).isPressed j = if j = k then true else s.isPressed j := by
  unfold State.isPressed
  by_cases h : j = k
  · subst h; simp
  · have : k.toNat ≠ j.toNat := fun e => h (BitVec.eq_of_toNat_eq e.symm)
    simp [this, h]

/-- Everything a key release can do to what is read of the keys. -/
theorem State.isPressed_keyRelease (s : State) (k j : Key) :
    (s.keyRelease k).isPressed j = if j = k then false else s.isPressed j := by
  unfold State.isPressed
  by_cases h : j = k
  · subst h; simp
  · have : k.toNat ≠ j.toNat := fun e => h (BitVec.eq_of_toNat_eq e.symm)
    simp [this, h]

/-! ## Operands -/

/-- The key a register names (45_keypad_timer.md R225). -/
theorem keyOf_eq (b : Byte) : keyOf b = if 15 < b.toNat then none else some (b.setWidth 4) := rfl

/-- `V[0]` to `V[x]` in order: as many as `x + 1`, the `k`-th being `V[k]`. -/
theorem State.regsTo_length (s : State) (x : Nibble) : (s.regsTo x).length = x.toNat + 1 := by
  have := x.isLt
  simp [State.regsTo]
  omega

theorem State.regsTo_get (s : State) (x : Nibble) {k : Nat} (hk : k ≤ x.toNat) :
    (s.regsTo x).getD k 0 = s.reg (BitVec.ofNat 4 k) := by
  have := x.isLt
  have hk16 : k < 16 := by omega
  have hlen : k < (s.regsTo x).length := by rw [State.regsTo_length]; omega
  rw [List.getD_eq_getElem _ _ hlen]
  simp [State.regsTo, State.reg, Nat.mod_eq_of_lt hk16]

/-! ## Fetch (40_cycle.md R101) -/

/-- The end of a skip instruction as one write of PC. -/
theorem State.skipIf_eq (s : State) (c : Bool) :
    s.skipIf c = s.setPc (if c then s.pc + 4 else s.pc + 2) := by
  cases c <;> rfl

/-- Everything a fetch can answer. -/
theorem State.fetch_eq (s : State) :
    s.fetch =
      if 4096 ≤ s.pc.toNat then .error (memoryFault s.pc.toNat .fetch)
      else if 4095 = s.pc.toNat then .error (memoryFault 4096 .fetch)
      else .ok (wordOfBytes (s.mem.peek s.pc.toNat) (s.mem.peek (s.pc.toNat + 1))) := by
  unfold State.fetch memRead
  by_cases h : 4096 ≤ s.pc.toNat
  · simp [h]
  · by_cases h' : 4095 = s.pc.toNat
    · simp [← h', Config.memSize]
    · have : ¬ 4096 ≤ s.pc.toNat + 1 := by omega
      simp [h, h', this, Config.memSize]

/-- A fetch at 4094 or below. -/
theorem State.fetch_ok {s : State} (h : s.pc.toNat ≤ 4094) :
    s.fetch = .ok (wordOfBytes (s.mem.peek s.pc.toNat) (s.mem.peek (s.pc.toNat + 1))) := by
  rw [State.fetch_eq, if_neg (by omega), if_neg (by omega)]

/-- What an answered fetch says: PC at 4094 or below, and the two bytes there. -/
theorem State.fetch_ok_inv {s : State} {op : Word} (h : s.fetch = .ok op) :
    s.pc.toNat ≤ 4094 ∧ op = wordOfBytes (s.mem.peek s.pc.toNat) (s.mem.peek (s.pc.toNat + 1)) := by
  rw [State.fetch_eq] at h
  split at h
  · cases h
  · split at h
    · cases h
    · injection h with h
      exact ⟨by omega, h.symm⟩

end Sys2Proof.Machine
end

