-- ==== Sys2Proof/Laws/Cycle.lean ====
section
/-! SUPPORT. What one cycle, one STEP event and one step of the machine can do, each said once, in terms
of fetch, decode and `exec` (spec 40_cycle.md R100 to R107). -/

namespace Sys2Proof.Machine

/-- The end of a STEP changes the timers alone, and those only in COUPLED mode without a fault. -/
theorem State.endOfStep_cases (s : State) :
    (s.fault.code = .none ∧ s.timerMode = .coupled ∧ s.endOfStep = s.timerUpdate) ∨
    (¬ (s.fault.code = .none ∧ s.timerMode = .coupled) ∧ s.endOfStep = s) := by
  unfold State.endOfStep
  by_cases h : s.fault.code = .none ∧ s.timerMode = .coupled
  · exact .inl ⟨h.1, h.2, if_pos h⟩
  · exact .inr ⟨h, if_neg h⟩

/-- Everything a cycle that answers a next state can have done: a fetch fault, an instruction, or an
unknown word. -/
theorem cycle_cases {s t : State} (h : cycle s = .next t) :
    (∃ f, s.fetch = .error f ∧ t = s.raise f) ∨
    (∃ op i u, s.fetch = .ok op ∧ decode op = .instr i ∧ exec i s = .next u ∧ t = u.endOfStep) ∨
    (∃ op w, s.fetch = .ok op ∧ decode op = .unknown w ∧ t = (execUnknown w s).endOfStep) := by
  unfold cycle at h
  split at h
  · rename_i f hf
    injection h with h
    exact .inl ⟨f, hf, h.symm⟩
  · rename_i op hop
    right
    cases hd : decode op with
    | instr i =>
      rw [hd] at h
      simp only [execDecoded] at h
      left
      split at h
      · rename_i u hu
        injection h with h
        exact ⟨op, i, u, hop, hd, hu, h.symm⟩
      · cases h
      · cases h
    | unknown w =>
      rw [hd] at h
      simp only [execDecoded] at h
      injection h with h
      exact .inr ⟨op, w, hop, hd, h.symm⟩

/-- Everything a STEP event can have done. -/
theorem stepEvent_cases {s t : State} (h : stepEvent s = .next t) :
    (s.fault.code ≠ .none ∧ t = s) ∨
    (s.fault.code = .none ∧ cycle s.markStepped = .next t) := by
  unfold stepEvent at h
  by_cases hf : s.fault.code = .none
  · rw [if_neg (not_not.2 hf)] at h; exact .inr ⟨hf, h⟩
  · rw [if_pos hf] at h; injection h with h; exact .inl ⟨hf, h.symm⟩

/-- Everything a LOAD event can have done. -/
theorem loadEvent_cases {bytes : List Byte} {s t : State} (h : loadEvent bytes s = .next t) :
    programWellFormed bytes = true ∧ s.stepped = false ∧ t = s.load bytes := by
  unfold loadEvent at h
  split at h
  · cases h
  · rename_i hw
    split at h
    · cases h
    · rename_i hs
      injection h with h
      exact ⟨not_not.1 hw, by simpa using hs, h.symm⟩

end Sys2Proof.Machine
end

