-- ==== Sys2Proof/Laws/Framebuffer.lean ====
section
/-! SUPPORT. The framebuffer controller's operations pixel by pixel (spec 44_display.md R190 to R194). -/

namespace Sys2Proof.Machine

@[simp] theorem Framebuffer.pixel_blank (x : BitVec 6) (y : BitVec 5) :
    Framebuffer.blank.pixel x y = false := by
  simp [Framebuffer.pixel, Framebuffer.blank]

/-- Everything one pixel write can do. -/
theorem Framebuffer.pixel_setPixel (fb : Framebuffer) (x x' : BitVec 6) (y y' : BitVec 5) (b : Bool) :
    (fb.setPixel x y b).pixel x' y' = if x' = x ∧ y' = y then b else fb.pixel x' y' := by
  unfold Framebuffer.pixel Framebuffer.setPixel
  by_cases hy : y' = y
  · subst hy
    by_cases hx : x' = x
    · subst hx; simp
    · have : x.toNat ≠ x'.toNat := fun h => hx (BitVec.eq_of_toNat_eq h.symm)
      simp [this, hx]
  · have : y.toNat ≠ y'.toNat := fun h => hy (BitVec.eq_of_toNat_eq h.symm)
    simp [this, hy]

/-- Two framebuffers with the same pixels are the same. -/
theorem Framebuffer.ext_pixel {f g : Framebuffer} (h : ∀ x y, f.pixel x y = g.pixel x y) : f = g := by
  apply Vector.ext
  intro y hy
  apply Vector.ext
  intro x hx
  have := h (BitVec.ofNat 6 x) (BitVec.ofNat 5 y)
  simpa [Framebuffer.pixel, Nat.mod_eq_of_lt hx, Nat.mod_eq_of_lt hy] using this

/-- Bit `7 - i` of a packed byte. -/
theorem packByte_getLsbD (p : Nat → Bool) {i : Nat} (hi : i < 8) :
    (packByte p).getLsbD (7 - i) = p i := by
  have : i = 0 ∨ i = 1 ∨ i = 2 ∨ i = 3 ∨ i = 4 ∨ i = 5 ∨ i = 6 ∨ i = 7 := by omega
  unfold packByte
  rcases this with h | h | h | h | h | h | h | h <;> subst h <;>
    simp only [BitVec.getLsbD_append, BitVec.getLsbD_ofBool] <;> simp

/-- Bit `7 - i` of `get_byte(x, y)` is the pixel `i` columns to the right, wrapping in the row (R193). -/
theorem Framebuffer.getByte_bit (fb : Framebuffer) (x : BitVec 6) (y : BitVec 5) {i : Nat}
    (hi : i < 8) : (fb.getByte x y).getLsbD (7 - i) = fb.pixel (x + BitVec.ofNat 6 i) y :=
  packByte_getLsbD _ hi

/-- How far a column lies to the right of `x`, around the row. -/
def columnsFrom (x col : BitVec 6) : Nat := (col - x).toNat

theorem eq_add_ofNat_iff (x col : BitVec 6) {i : Nat} (hi : i < 64) :
    col = x + BitVec.ofNat 6 i ↔ columnsFrom x col = i := by
  unfold columnsFrom
  constructor
  · intro h; subst h
    rw [BitVec.add_comm, BitVec.add_sub_cancel]
    simp [Nat.mod_eq_of_lt hi]
  · intro h
    have : col - x = BitVec.ofNat 6 i := by
      apply BitVec.eq_of_toNat_eq; simp [h, Nat.mod_eq_of_lt hi]
    rw [← this, BitVec.add_comm, BitVec.sub_add_cancel]

theorem Framebuffer.pixel_setBits (x : BitVec 6) (y : BitVec 5) (b : Byte) (n : Nat) (hn : n ≤ 8)
    (fb : Framebuffer) (col : BitVec 6) (row : BitVec 5) :
    ((List.range n).foldl
        (fun fb i => Framebuffer.setPixel fb (x + BitVec.ofNat 6 i) y (b.getLsbD (7 - i))) fb).pixel
      col row =
      if row = y ∧ columnsFrom x col < n then b.getLsbD (7 - columnsFrom x col)
      else fb.pixel col row := by
  induction n with
  | zero => simp
  | succ n ih =>
    rw [List.range_succ, List.foldl_append]
    simp only [List.foldl_cons, List.foldl_nil]
    rw [Framebuffer.pixel_setPixel, ih (by omega)]
    simp only [eq_add_ofNat_iff x col (i := n) (by omega)]
    by_cases hy : row = y
    · by_cases hc : columnsFrom x col = n
      · simp [hy, hc]
      · have : columnsFrom x col < n + 1 ↔ columnsFrom x col < n := by omega
        simp [hy, hc, this]
    · simp [hy]

/-- Everything `set_byte(x, y, b)` can do (R194): the eight columns from `x`, around the row, take the
bits most significant first; every other pixel stays. -/
theorem Framebuffer.pixel_setByte (fb : Framebuffer) (x : BitVec 6) (y : BitVec 5) (b : Byte)
    (col : BitVec 6) (row : BitVec 5) :
    (fb.setByte x y b).pixel col row =
      if row = y ∧ columnsFrom x col < 8 then b.getLsbD (7 - columnsFrom x col)
      else fb.pixel col row :=
  Framebuffer.pixel_setBits x y b 8 (Nat.le_refl _) fb col row

/-- The bit of `get_byte` that shows a column of its window. -/
theorem Framebuffer.getByte_column (fb : Framebuffer) (x : BitVec 6) (y : BitVec 5) (col : BitVec 6)
    (h : columnsFrom x col < 8) :
    (fb.getByte x y).getLsbD (7 - columnsFrom x col) = fb.pixel col y := by
  rw [Framebuffer.getByte_bit fb x y h, ← (eq_add_ofNat_iff x col (by omega)).2 rfl]

end Sys2Proof.Machine
end

