-- ==== Sys2Proof/Laws/Display.lean ====
section
/-! SUPPORT. What one row and the whole row loop of a draw do, pixel by pixel (spec 44_display.md R201). -/

namespace Sys2Proof.Machine

/-- The bit of a sprite byte that falls on a column, none outside the eight columns. -/
def rowBit (x0 col : BitVec 6) (sprite : Byte) : Bool :=
  decide (columnsFrom x0 col < 8) && sprite.getLsbD (7 - columnsFrom x0 col)

/-- Everything one row of a draw does to the pixels: its bits are XORed onto its row. -/
theorem drawRow_pixel (x0 : BitVec 6) (y : BitVec 5) (sprite : Byte) (fb : Framebuffer) (hit : Bool)
    (col : BitVec 6) (row : BitVec 5) :
    (drawRow x0 y sprite fb hit).1.pixel col row =
      if row = y then fb.pixel col row ^^ rowBit x0 col sprite else fb.pixel col row := by
  unfold drawRow rowBit
  simp only [Framebuffer.pixel_setByte]
  by_cases hy : row = y
  · subst hy
    by_cases hc : columnsFrom x0 col < 8
    · simp [hc, BitVec.getLsbD_xor, Framebuffer.getByte_column fb x0 row col hc]
    · simp [hc]
  · simp [hy]

/-- One row of a draw reports a hit exactly when some pixel its bits cover was lit. -/
theorem drawRow_hit (x0 : BitVec 6) (y : BitVec 5) (sprite : Byte) (fb : Framebuffer) (hit : Bool) :
    (drawRow x0 y sprite fb hit).2 = true ↔
      hit = true ∨ ∃ col, rowBit x0 col sprite = true ∧ fb.pixel col y = true := by
  unfold drawRow rowBit collisionFlag
  simp only [Bool.or_eq_true, decide_eq_true_eq, Bool.and_eq_true]
  refine or_congr Iff.rfl ?_
  constructor
  · intro hne
    have : ∃ j, j < 8 ∧ (fb.getByte x0 y &&& sprite).getLsbD j = true := by
      by_contra hno
      apply hne
      apply BitVec.eq_of_getLsbD_eq
      intro j hj
      have := not_exists.1 hno j
      simpa [hj] using this
    obtain ⟨j, hj, hb⟩ := this
    rw [BitVec.getLsbD_and, Bool.and_eq_true] at hb
    have hcol : columnsFrom x0 (x0 + BitVec.ofNat 6 (7 - j)) = 7 - j :=
      (eq_add_ofNat_iff x0 _ (by omega)).1 rfl
    refine ⟨x0 + BitVec.ofNat 6 (7 - j), ⟨by omega, ?_⟩, ?_⟩
    · rw [hcol, show 7 - (7 - j) = j by omega]; exact hb.2
    · rw [← Framebuffer.getByte_bit fb x0 y (by omega), show 7 - (7 - j) = j by omega]; exact hb.1
  · rintro ⟨col, ⟨hc, hs⟩, hp⟩ hz
    have := congrArg (fun b : Byte => b.getLsbD (7 - columnsFrom x0 col)) hz
    simp [BitVec.getLsbD_and, Framebuffer.getByte_column fb x0 y col hc, hp, hs] at this

/-- The bits of the first `rows` rows of a sprite on a pixel. -/
def spriteBits (m : Memory) (base : Nat) (x0 : BitVec 6) (y0 rows : Nat) (col : BitVec 6)
    (row : BitVec 5) : Bool :=
  decide (y0 ≤ row.toNat ∧ row.toNat < y0 + rows) &&
    rowBit x0 col (m.peek (base + (row.toNat - y0)))

theorem drawSprite_succ (m : Memory) (base : Nat) (x0 : BitVec 6) (y0 rows : Nat) (fb : Framebuffer) :
    drawSprite m base x0 y0 (rows + 1) fb =
      drawRow x0 (BitVec.ofNat 5 (y0 + rows)) (m.peek (base + rows))
        (drawSprite m base x0 y0 rows fb).1 (drawSprite m base x0 y0 rows fb).2 := by
  unfold drawSprite
  rw [List.range_succ, List.foldl_append]
  rfl

/-- A row of the screen is the `r`-th of a draw from row `y0` exactly when it is row `y0 + r`. -/
theorem row_eq_ofNat_iff (row : BitVec 5) {n : Nat} (hn : n < 32) :
    row = BitVec.ofNat 5 n ↔ row.toNat = n := by
  constructor
  · intro h; subst h; simp [Nat.mod_eq_of_lt hn]
  · intro h; apply BitVec.eq_of_toNat_eq; simp [h, Nat.mod_eq_of_lt hn]

/-- Everything the row loop does to the pixels, for rows that are all on the screen: the sprite's bits
are XORed on. -/
theorem drawSprite_pixel (m : Memory) (base : Nat) (x0 : BitVec 6) (y0 : Nat) (fb : Framebuffer)
    (col : BitVec 6) (row : BitVec 5) {rows : Nat} (h : y0 + rows ≤ 32) :
    (drawSprite m base x0 y0 rows fb).1.pixel col row =
      (fb.pixel col row ^^ spriteBits m base x0 y0 rows col row) := by
  induction rows with
  | zero =>
    have : ¬ (y0 ≤ row.toNat ∧ row.toNat < y0 + 0) := by omega
    rw [spriteBits, decide_eq_false this]
    simp [drawSprite]
  | succ rows ih =>
    rw [drawSprite_succ, drawRow_pixel, ih (by omega)]
    unfold spriteBits
    by_cases hr : row = BitVec.ofNat 5 (y0 + rows)
    · have hn := (row_eq_ofNat_iff row (by omega)).1 hr
      have h1 : ¬ (y0 ≤ row.toNat ∧ row.toNat < y0 + rows) := by omega
      have h2 : y0 ≤ row.toNat ∧ row.toNat < y0 + (rows + 1) := by omega
      have h3 : row.toNat - y0 = rows := by omega
      rw [if_pos hr, h3, decide_eq_false h1, decide_eq_true h2]
      simp
    · have hn : row.toNat ≠ y0 + rows := fun e => hr ((row_eq_ofNat_iff row (by omega)).2 e)
      have h1 : (y0 ≤ row.toNat ∧ row.toNat < y0 + (rows + 1)) ↔
          (y0 ≤ row.toNat ∧ row.toNat < y0 + rows) := by omega
      rw [if_neg hr]
      simp only [h1]

/-- Everything the row loop reports: a hit exactly when the sprite covers a pixel that was lit. -/
theorem drawSprite_hit (m : Memory) (base : Nat) (x0 : BitVec 6) (y0 : Nat) (fb : Framebuffer)
    {rows : Nat} (h : y0 + rows ≤ 32) :
    (drawSprite m base x0 y0 rows fb).2 = true ↔
      ∃ col row, spriteBits m base x0 y0 rows col row = true ∧ fb.pixel col row = true := by
  induction rows with
  | zero =>
    constructor
    · intro e; simp [drawSprite] at e
    · rintro ⟨col, row, hb, -⟩
      unfold spriteBits at hb
      rw [Bool.and_eq_true, decide_eq_true_eq] at hb
      omega
  | succ rows ih =>
    rw [drawSprite_succ, drawRow_hit, ih (by omega)]
    have hrow : (BitVec.ofNat 5 (y0 + rows)).toNat = y0 + rows := by
      simp [Nat.mod_eq_of_lt (show y0 + rows < 32 by omega)]
    have fresh : ∀ col, (drawSprite m base x0 y0 rows fb).1.pixel col (BitVec.ofNat 5 (y0 + rows)) =
        fb.pixel col (BitVec.ofNat 5 (y0 + rows)) := by
      intro col
      rw [drawSprite_pixel m base x0 y0 fb col _ (by omega)]
      unfold spriteBits
      rw [hrow, decide_eq_false (by omega)]
      simp
    constructor
    · rintro (⟨col, row, hb, hp⟩ | ⟨col, hb, hp⟩)
      · refine ⟨col, row, ?_, hp⟩
        unfold spriteBits at hb ⊢
        rw [Bool.and_eq_true, decide_eq_true_eq] at hb ⊢
        exact ⟨by omega, hb.2⟩
      · refine ⟨col, BitVec.ofNat 5 (y0 + rows), ?_, (fresh col) ▸ hp⟩
        unfold spriteBits
        rw [Bool.and_eq_true, decide_eq_true_eq, hrow]
        exact ⟨by omega, by rw [show y0 + rows - y0 = rows by omega]; exact hb⟩
    · rintro ⟨col, row, hb, hp⟩
      unfold spriteBits at hb
      rw [Bool.and_eq_true, decide_eq_true_eq] at hb
      by_cases hr : row.toNat = y0 + rows
      · have hr' := (row_eq_ofNat_iff row (by omega)).2 hr
        subst hr'
        refine .inr ⟨col, ?_, (fresh col).symm ▸ hp⟩
        rw [hrow, show y0 + rows - y0 = rows by omega] at hb
        exact hb.2
      · refine .inl ⟨col, row, ?_, hp⟩
        unfold spriteBits
        rw [Bool.and_eq_true, decide_eq_true_eq]
        exact ⟨by omega, hb.2⟩

/-- The rows drawn are all on the screen. -/
theorem spriteRows_fit (y0 : Byte) (n : Nibble) :
    spriteRows y0 n = 0 ∨ y0.toNat + spriteRows y0 n ≤ 32 := by
  unfold spriteRows
  by_cases h : y0.toNat ≥ Config.fbHeight
  · exact .inl (if_pos h)
  · refine .inr ?_
    rw [if_neg h]
    simp only [Config.fbHeight] at *
    omega

end Sys2Proof.Machine
end

