-- ==== Sys2Proof/Laws/IndexMemory.lean ====
section
/-! SUPPORT. What the stores and loads through `I` can do (spec 43_index_memory.md R173 to R175). -/

namespace Sys2Proof.Machine

/-- Everything a store through `I` can do: a fault and nothing else, or the bytes stored and PC + 2. -/
theorem storeThroughIndex_cases (bytes : List Byte) (s : State) :
    (0 < bytes.length ∧ Config.memSize < s.index.toNat + bytes.length ∧
      storeThroughIndex bytes s =
        s.raise (memoryFault (max s.index.toNat Config.memSize) .dataWrite)) ∨
    ((bytes.length = 0 ∨ s.index.toNat + bytes.length ≤ Config.memSize) ∧
      storeThroughIndex bytes s =
        ({ s with mem := s.mem.pokeBytes s.index.toNat bytes }).advance) := by
  unfold storeThroughIndex State.effectiveAddress
  rw [Nat.add_zero]
  by_cases h : 0 < bytes.length ∧ Config.memSize < s.index.toNat + bytes.length
  · exact .inl ⟨h.1, h.2, by rw [rangeFault_some _ h]⟩
  · exact .inr ⟨by omega, by rw [rangeFault_none _ (by omega)]⟩

/-- The registers after the first `n` of a load through `I`. -/
theorem loadLoop_eq (s : State) (n : Nat) (hn : n ≤ 16) :
    ∃ v, (List.range n).foldl (fun t k => State.setReg t (BitVec.ofNat 4 k)
        (s.mem.peek (s.effectiveAddress k))) s = { s with v := v } ∧
      ∀ j : Nibble, State.reg { s with v := v } j =
        if j.toNat < n then s.mem.peek (s.effectiveAddress j.toNat) else s.reg j := by
  induction n with
  | zero => exact ⟨s.v, rfl, fun j => by rw [if_neg (by omega)]⟩
  | succ n ih =>
    obtain ⟨v, hv, hreg⟩ := ih (by omega)
    rw [List.range_succ, List.foldl_append, hv]
    refine ⟨_, rfl, fun j => ?_⟩
    have hset := State.reg_setReg { s with v := v } (BitVec.ofNat 4 n) j
      (s.mem.peek (s.effectiveAddress n))
    refine hset.trans ?_
    rw [hreg]
    have hj : j = BitVec.ofNat 4 n ↔ j.toNat = n := by
      constructor
      · intro h; subst h; simp [Nat.mod_eq_of_lt (show n < 16 by omega)]
      · intro h; apply BitVec.eq_of_toNat_eq; simp [h, Nat.mod_eq_of_lt (show n < 16 by omega)]
    by_cases h : j.toNat = n
    · rw [if_pos (hj.2 h), if_pos (by omega), h]
    · rw [if_neg (fun e => h (hj.1 e))]
      by_cases h' : j.toNat < n
      · rw [if_pos h', if_pos (by omega)]
      · rw [if_neg h', if_neg (by omega)]

/-- Everything a load through `I` does (R175): `V[0]` to `V[x]` take the bytes from `I` up, nothing else
changes. -/
theorem State.loadRegs_eq (s : State) (x : Nibble) :
    ∃ v, s.loadRegs x = { s with v := v } ∧
      ∀ j : Nibble, State.reg { s with v := v } j =
        if j.toNat ≤ x.toNat then s.mem.peek (s.index.toNat + j.toNat) else s.reg j := by
  have := x.isLt
  obtain ⟨v, hv, hreg⟩ := loadLoop_eq s (x.toNat + 1) (by omega)
  refine ⟨v, hv, fun j => (hreg j).trans ?_⟩
  simp only [Nat.lt_succ_iff, State.effectiveAddress]

end Sys2Proof.Machine
end

