-- ==== Sys2Proof/Laws/PerInstr.lean ====
section
/-! SUPPORT. One law an instruction: the word its encoder writes carries the fixed bits of its own row of
the opcode map (spec 30_encoding.md R83, R85). -/

namespace Sys2Proof

/-! ## What a row's mask leaves of a packed word -/

theorem packNNN_mask (t : Nibble) (nnn : Imm12) :
    packNNN t nnn &&& 0xF000#16 = packNNN t 0 := by
  apply BitVec.eq_of_getLsbD_eq
  intro i hi
  unfold packNNN
  interval_cases i <;> simp only [BitVec.getLsbD_and, BitVec.getLsbD_append] <;> simp

theorem packXNN_mask (t x : Nibble) (nn : Byte) :
    packXNN t x nn &&& 0xF000#16 = packXNN t 0 0 := by
  apply BitVec.eq_of_getLsbD_eq
  intro i hi
  unfold packXNN
  interval_cases i <;> simp only [BitVec.getLsbD_and, BitVec.getLsbD_append] <;> simp

theorem packXYN_mask (t x y n : Nibble) :
    packXYN t x y n &&& 0xF000#16 = packXYN t 0 0 0 := by
  apply BitVec.eq_of_getLsbD_eq
  intro i hi
  unfold packXYN
  interval_cases i <;> simp only [BitVec.getLsbD_and, BitVec.getLsbD_append] <;> simp

theorem packXYN_maskOuter (t x y n : Nibble) :
    packXYN t x y n &&& 0xF00F#16 = packXYN t 0 0 n := by
  apply BitVec.eq_of_getLsbD_eq
  intro i hi
  unfold packXYN
  interval_cases i <;> simp only [BitVec.getLsbD_and, BitVec.getLsbD_append] <;> simp

theorem packX_mask (t x : Nibble) (sub : Byte) :
    packX t x sub &&& 0xF0FF#16 = packX t 0 sub := by
  apply BitVec.eq_of_getLsbD_eq
  intro i hi
  unfold packX packXNN
  interval_cases i <;> simp only [BitVec.getLsbD_and, BitVec.getLsbD_append] <;> simp

namespace Laws.EncodeInRow

/-- The word encoded for an instruction is accepted by the row of the instruction's number. -/
def Statement (i : Instr) : Prop :=
  ∃ r, r ∈ opcodeTable ∧ r.number = rowNumber i ∧ encode i &&& r.mask = r.pattern

theorem op00E0 : Statement (.op00E0) :=
  ⟨⟨1, 0xFFFF, 0x00E0⟩, by decide, rfl, rfl⟩

theorem op00EE : Statement (.op00EE) :=
  ⟨⟨2, 0xFFFF, 0x00EE⟩, by decide, rfl, rfl⟩

theorem op1NNN (nnn : Imm12) : Statement (.op1NNN nnn) :=
  ⟨⟨3, 0xF000, 0x1000⟩, by decide, rfl, packNNN_mask _ _⟩

theorem op2NNN (nnn : Imm12) : Statement (.op2NNN nnn) :=
  ⟨⟨4, 0xF000, 0x2000⟩, by decide, rfl, packNNN_mask _ _⟩

theorem op3XNN (x : Nibble) (nn : Byte) : Statement (.op3XNN x nn) :=
  ⟨⟨5, 0xF000, 0x3000⟩, by decide, rfl, packXNN_mask _ _ _⟩

theorem op4XNN (x : Nibble) (nn : Byte) : Statement (.op4XNN x nn) :=
  ⟨⟨6, 0xF000, 0x4000⟩, by decide, rfl, packXNN_mask _ _ _⟩

theorem op5XY0 (x : Nibble) (y : Nibble) : Statement (.op5XY0 x y) :=
  ⟨⟨7, 0xF00F, 0x5000⟩, by decide, rfl, packXYN_maskOuter _ _ _ _⟩

theorem op6XNN (x : Nibble) (nn : Byte) : Statement (.op6XNN x nn) :=
  ⟨⟨8, 0xF000, 0x6000⟩, by decide, rfl, packXNN_mask _ _ _⟩

theorem op7XNN (x : Nibble) (nn : Byte) : Statement (.op7XNN x nn) :=
  ⟨⟨9, 0xF000, 0x7000⟩, by decide, rfl, packXNN_mask _ _ _⟩

theorem op8XY0 (x : Nibble) (y : Nibble) : Statement (.op8XY0 x y) :=
  ⟨⟨10, 0xF00F, 0x8000⟩, by decide, rfl, packXYN_maskOuter _ _ _ _⟩

theorem op8XY1 (x : Nibble) (y : Nibble) : Statement (.op8XY1 x y) :=
  ⟨⟨11, 0xF00F, 0x8001⟩, by decide, rfl, packXYN_maskOuter _ _ _ _⟩

theorem op8XY2 (x : Nibble) (y : Nibble) : Statement (.op8XY2 x y) :=
  ⟨⟨12, 0xF00F, 0x8002⟩, by decide, rfl, packXYN_maskOuter _ _ _ _⟩

theorem op8XY3 (x : Nibble) (y : Nibble) : Statement (.op8XY3 x y) :=
  ⟨⟨13, 0xF00F, 0x8003⟩, by decide, rfl, packXYN_maskOuter _ _ _ _⟩

theorem op8XY4 (x : Nibble) (y : Nibble) : Statement (.op8XY4 x y) :=
  ⟨⟨14, 0xF00F, 0x8004⟩, by decide, rfl, packXYN_maskOuter _ _ _ _⟩

theorem op8XY5 (x : Nibble) (y : Nibble) : Statement (.op8XY5 x y) :=
  ⟨⟨15, 0xF00F, 0x8005⟩, by decide, rfl, packXYN_maskOuter _ _ _ _⟩

theorem op8XY6 (x : Nibble) (y : Nibble) : Statement (.op8XY6 x y) :=
  ⟨⟨16, 0xF00F, 0x8006⟩, by decide, rfl, packXYN_maskOuter _ _ _ _⟩

theorem op8XY7 (x : Nibble) (y : Nibble) : Statement (.op8XY7 x y) :=
  ⟨⟨17, 0xF00F, 0x8007⟩, by decide, rfl, packXYN_maskOuter _ _ _ _⟩

theorem op8XYE (x : Nibble) (y : Nibble) : Statement (.op8XYE x y) :=
  ⟨⟨18, 0xF00F, 0x800E⟩, by decide, rfl, packXYN_maskOuter _ _ _ _⟩

theorem op9XY0 (x : Nibble) (y : Nibble) : Statement (.op9XY0 x y) :=
  ⟨⟨19, 0xF00F, 0x9000⟩, by decide, rfl, packXYN_maskOuter _ _ _ _⟩

theorem opANNN (nnn : Imm12) : Statement (.opANNN nnn) :=
  ⟨⟨20, 0xF000, 0xA000⟩, by decide, rfl, packNNN_mask _ _⟩

theorem opBNNN (nnn : Imm12) : Statement (.opBNNN nnn) :=
  ⟨⟨21, 0xF000, 0xB000⟩, by decide, rfl, packNNN_mask _ _⟩

theorem opCXNN (x : Nibble) (nn : Byte) : Statement (.opCXNN x nn) :=
  ⟨⟨22, 0xF000, 0xC000⟩, by decide, rfl, packXNN_mask _ _ _⟩

theorem opDXYN (x : Nibble) (y : Nibble) (n : Nibble) : Statement (.opDXYN x y n) :=
  ⟨⟨23, 0xF000, 0xD000⟩, by decide, rfl, packXYN_mask _ _ _ _⟩

theorem opEX9E (x : Nibble) : Statement (.opEX9E x) :=
  ⟨⟨24, 0xF0FF, 0xE09E⟩, by decide, rfl, packX_mask _ _ _⟩

theorem opEXA1 (x : Nibble) : Statement (.opEXA1 x) :=
  ⟨⟨25, 0xF0FF, 0xE0A1⟩, by decide, rfl, packX_mask _ _ _⟩

theorem opFX07 (x : Nibble) : Statement (.opFX07 x) :=
  ⟨⟨26, 0xF0FF, 0xF007⟩, by decide, rfl, packX_mask _ _ _⟩

theorem opFX0A (x : Nibble) : Statement (.opFX0A x) :=
  ⟨⟨27, 0xF0FF, 0xF00A⟩, by decide, rfl, packX_mask _ _ _⟩

theorem opFX15 (x : Nibble) : Statement (.opFX15 x) :=
  ⟨⟨28, 0xF0FF, 0xF015⟩, by decide, rfl, packX_mask _ _ _⟩

theorem opFX18 (x : Nibble) : Statement (.opFX18 x) :=
  ⟨⟨29, 0xF0FF, 0xF018⟩, by decide, rfl, packX_mask _ _ _⟩

theorem opFX1E (x : Nibble) : Statement (.opFX1E x) :=
  ⟨⟨30, 0xF0FF, 0xF01E⟩, by decide, rfl, packX_mask _ _ _⟩

theorem opFX29 (x : Nibble) : Statement (.opFX29 x) :=
  ⟨⟨31, 0xF0FF, 0xF029⟩, by decide, rfl, packX_mask _ _ _⟩

theorem opFX33 (x : Nibble) : Statement (.opFX33 x) :=
  ⟨⟨32, 0xF0FF, 0xF033⟩, by decide, rfl, packX_mask _ _ _⟩

theorem opFX55 (x : Nibble) : Statement (.opFX55 x) :=
  ⟨⟨33, 0xF0FF, 0xF055⟩, by decide, rfl, packX_mask _ _ _⟩

theorem opFX65 (x : Nibble) : Statement (.opFX65 x) :=
  ⟨⟨34, 0xF0FF, 0xF065⟩, by decide, rfl, packX_mask _ _ _⟩

end Laws.EncodeInRow

end Sys2Proof
end

