-- ==== Sys2Proof/Tests/Slice0.lean ====
section
/-! SUPPORT. Tests. Expected values come from the spec: the encodings of 30_encoding.md R83 and R85, the
vectors of 95_test_vectors.md (cited V-..), and for the witnesses the bounds the rules state. Each runs at
most one step on a small state. -/

namespace Sys2Proof.Tests

open Sys2Proof Sys2Proof.Machine Sys2Proof.Safety

/-- The reset state with some registers set and the word `w` about to be executed. -/
def start (regs : List (Nibble × Byte)) (w : Nat) : State :=
  (regs.foldl (fun s r => s.setReg r.1 r.2) State.reset).withFetchWord 16 w

/-- The state with bytes stored from an address. -/
def withBytes (s : State) (a : Nat) (bytes : List Byte) : State :=
  { s with mem := s.mem.pokeBytes a bytes }

/-- The state with PC at `pc` and the word `w` there. -/
def startAt (pc : Word) (w : Nat) : State := (State.reset.setPc pc).withFetchWord 16 w

/-- The step answers a next state that passes the check. -/
def gives (s : State) (check : State → Bool) : Bool :=
  match step s with
  | .next t => check t
  | .fault _ => false
  | .refused _ => false

/-! ## Decode: one word for every constructor, from the encodings of R83 and R85 -/

theorem test_decode_family_0 :
    decode 0b0000000011100000#16 = .instr .op00E0 ∧
    decode 0b0000000011101110#16 = .instr .op00EE := by decide

theorem test_decode_jumps :
    decode 0b0001001000110100#16 = .instr (.op1NNN 0x234) ∧
    decode 0b0010101010111100#16 = .instr (.op2NNN 0xABC) ∧
    decode 0b1011001100000001#16 = .instr (.opBNNN 0x301) := by decide

theorem test_decode_skips :
    decode 0b0011110011111110#16 = .instr (.op3XNN 0xC 0xFE) ∧
    decode 0b0100000100110011#16 = .instr (.op4XNN 1 0x33) ∧
    decode 0b0101001000110000#16 = .instr (.op5XY0 2 3) ∧
    decode 0b1001101010110000#16 = .instr (.op9XY0 0xA 0xB) := by decide

theorem test_decode_immediates :
    decode 0b0110001100110011#16 = .instr (.op6XNN 3 0x33) ∧
    decode 0b0111000110000000#16 = .instr (.op7XNN 1 0x80) ∧
    decode 0b1100000100001111#16 = .instr (.opCXNN 1 0x0F) := by decide

theorem test_decode_family_8_moves :
    decode 0b1000101010110000#16 = .instr (.op8XY0 0xA 0xB) ∧
    decode 0b1000000100100001#16 = .instr (.op8XY1 1 2) ∧
    decode 0b1000000100100010#16 = .instr (.op8XY2 1 2) ∧
    decode 0b1000000100100011#16 = .instr (.op8XY3 1 2) := by decide

theorem test_decode_family_8_flags :
    decode 0b1000101010110100#16 = .instr (.op8XY4 0xA 0xB) ∧
    decode 0b1000000100100101#16 = .instr (.op8XY5 1 2) ∧
    decode 0b1000000100100110#16 = .instr (.op8XY6 1 2) ∧
    decode 0b1000000100100111#16 = .instr (.op8XY7 1 2) ∧
    decode 0b1000000100101110#16 = .instr (.op8XYE 1 2) := by decide

theorem test_decode_index_and_draw :
    decode 0b1010111111111110#16 = .instr (.opANNN 0xFFE) ∧
    decode 0b1101000100100011#16 = .instr (.opDXYN 1 2 3) := by decide

theorem test_decode_family_E :
    decode 0b1110010010011110#16 = .instr (.opEX9E 4) ∧
    decode 0b1110010010100001#16 = .instr (.opEXA1 4) := by decide

theorem test_decode_family_F_timers :
    decode 0b1111011000000111#16 = .instr (.opFX07 6) ∧
    decode 0b1111010100001010#16 = .instr (.opFX0A 5) ∧
    decode 0b1111010100010101#16 = .instr (.opFX15 5) ∧
    decode 0b1111000000011000#16 = .instr (.opFX18 0) := by decide

theorem test_decode_family_F_memory :
    decode 0b1111001000011110#16 = .instr (.opFX1E 2) ∧
    decode 0b1111101000101001#16 = .instr (.opFX29 0xA) ∧
    decode 0b1111000000110011#16 = .instr (.opFX33 0) ∧
    decode 0b1111111101010101#16 = .instr (.opFX55 0xF) ∧
    decode 0b1111111001100101#16 = .instr (.opFX65 0xE) := by decide

/-- The unknown words of section 2.2. -/
theorem test_decode_unknown :
    ([0x0000, 0x0123, 0x00E1, 0x00EF, 0x01E0, 0x0FEE, 0x5121, 0x512F, 0x8008, 0x8129] ++
     [0x812F, 0x9AB1, 0xE000, 0xE19F, 0xE1A0, 0xF000, 0xF10B, 0xF154, 0xF166, 0xFFFF] : List Word).all
      (fun w => decode w == .unknown w) = true := by decide

/-- Bytes in memory order: the first is the high byte (V-E1), and one byte is no instruction. -/
theorem test_decode_bytes :
    decodeBytes [0x12, 0x34, 0x99] = some (.instr (.op1NNN 0x234), [0x99]) ∧
    decodeBytes [0x12] = none ∧ decodeTableWord 16 0xE49E = some (.opEX9E 4) ∧
    decodeTableWord 16 0xE49F = none := by decide

/-! ## Well-formedness: one ill-formed term for each check -/

/-- A program of 3585 bytes is refused, one of 3584 is not (S9). -/
theorem test_program_too_long :
    programWellFormed (List.replicate 3585 0) = false ∧
    programWellFormed (List.replicate 3584 0) = true := by
  simp only [programWellFormed, List.length_replicate]; decide

/-- Memory out of order, with a repeat, outside the address space, or listing what an unlisted address
reads as (the font's 0xF0 at 0x050, 0 elsewhere) is not canonical. -/
theorem test_memory_not_canonical :
    Memory.wf [(0x301, 1), (0x300, 1)] = false ∧ Memory.wf [(0x300, 1), (0x300, 2)] = false ∧
    Memory.wf [(4096, 1)] = false ∧ Memory.wf [(0x050, 0xF0)] = false ∧
    Memory.wf [(0x300, 0)] = false ∧ Memory.wf [(0x050, 0), (0x300, 1)] = true := by decide

/-! ## One step an instruction -/

/-- V-D15. -/
theorem test_00E0_clears :
    gives ({ start [(15, 0x77)] 0x00E0 with fb := Framebuffer.blank.setPixel 3 4 true })
      (fun t => !t.fb.pixel 3 4 && t.reg 15 == 0x77 && t.needsRedraw && t.pc == 0x202) = true := by
  decide

/-- V-F8. -/
theorem test_00EE_returns :
    gives ({ start [] 0x00EE with sp := 16, stack := State.reset.stack.set 15 0x0ABC })
      (fun t => t.pc == 0x0ABC && t.sp == 15 && t.stack[15] == 0x0ABC) = true := by
  decide

/-- V-F9. -/
theorem test_00EE_underflow :
    gives (start [] 0x00EE)
      (fun t => t.fault == ⟨.stackUnderflow, .none, 0⟩ && t.pc == 0x200 && t.sp == 0) = true := by
  decide

/-- V-F1. -/
theorem test_1NNN_jumps :
    gives (start [] 0x1ABC) (fun t => t.pc == 0x0ABC) = true := by decide

/-- V-F6. -/
theorem test_2NNN_calls :
    gives ({ startAt 0x400 0x2ABC with sp := 15 })
      (fun t => t.stack[15] == 0x0402 && t.sp == 16 && t.pc == 0x0ABC) = true := by
  decide

/-- V-F7. -/
theorem test_2NNN_overflow :
    gives ({ startAt 0x400 0x2ABC with sp := 16 })
      (fun t => t.fault == ⟨.stackOverflow, .none, 0⟩ && t.pc == 0x400 && t.sp == 16) = true := by
  decide

/-- V-F10. -/
theorem test_3XNN_skips :
    gives (start [(3, 0x33)] 0x3333) (fun t => t.pc == 0x204) = true := by decide

/-- V-F20. -/
theorem test_3XNN_skips_past_the_end :
    gives (startAt 0xFFE 0x3000)
      (fun t => t.pc == 0x1002 && t.fault.code == .none) = true := by
  decide

/-- V-F12. -/
theorem test_4XNN_does_not_skip :
    gives (start [(3, 0x33)] 0x4333) (fun t => t.pc == 0x202) = true := by decide

/-- V-F13. -/
theorem test_4XNN_skips :
    gives (start [(3, 0x33)] 0x4334) (fun t => t.pc == 0x204) = true := by decide

/-- V-F14. -/
theorem test_5XY0_skips :
    gives (start [(1, 7), (2, 7)] 0x5120) (fun t => t.pc == 0x204) = true := by decide

/-- V-F15. -/
theorem test_5XY0_does_not_skip :
    gives (start [(1, 7), (2, 8)] 0x5120) (fun t => t.pc == 0x202) = true := by decide

/-- S7. -/
theorem test_6XNN_loads :
    gives (start [] 0x6333) (fun t => t.reg 3 == 0x33 && t.pc == 0x202) = true := by decide

/-- V-A39. -/
theorem test_6XNN_loads_vf :
    gives (start [] 0x6FAB) (fun t => t.reg 15 == 0xAB) = true := by decide

/-- V-A38. -/
theorem test_7XNN_wraps_without_flag :
    gives (start [(1, 0x80), (15, 0x55)] 0x7180)
      (fun t => t.reg 1 == 0 && t.reg 15 == 0x55) = true := by
  decide

/-- V-A37. -/
theorem test_7XNN_on_vf :
    gives (start [] 0x7FFF) (fun t => t.reg 15 == 0xFF) = true := by decide

/-- V-A40. -/
theorem test_8XY0_copies :
    gives (start [(0xA, 1), (0xB, 0xEE)] 0x8AB0)
      (fun t => t.reg 0xA == 0xEE && t.reg 0xB == 0xEE) = true := by
  decide

/-- V-A32. -/
theorem test_8XY1_ors :
    gives (start [(1, 0x0C), (2, 0x0A), (15, 0x77)] 0x8121)
      (fun t => t.reg 1 == 0x0E && t.reg 15 == 0x77) = true := by
  decide

/-- V-A33. -/
theorem test_8XY2_ands :
    gives (start [(1, 0x0C), (2, 0x0A), (15, 0x77)] 0x8122)
      (fun t => t.reg 1 == 0x08 && t.reg 15 == 0x77) = true := by
  decide

/-- V-A34. -/
theorem test_8XY3_xors :
    gives (start [(1, 0x0C), (2, 0x0A), (15, 0x77)] 0x8123)
      (fun t => t.reg 1 == 0x06 && t.reg 15 == 0x77) = true := by
  decide

/-- V-A3. -/
theorem test_8XY4_no_carry_at_255 :
    gives (start [(1, 0x80), (2, 0x7F)] 0x8124)
      (fun t => t.reg 1 == 0xFF && t.reg 15 == 0) = true := by
  decide

/-- V-A6. -/
theorem test_8XY4_old_vf_is_the_addend :
    gives (start [(1, 0xFF), (15, 1)] 0x81F4)
      (fun t => t.reg 1 == 0 && t.reg 15 == 1) = true := by
  decide

/-- V-A11. -/
theorem test_8XY5_equal_is_no_borrow :
    gives (start [(1, 0x33), (2, 0x33)] 0x8125)
      (fun t => t.reg 1 == 0 && t.reg 15 == 1) = true := by
  decide

/-- V-A13. -/
theorem test_8XY5_on_vf :
    gives (start [(15, 3), (1, 5)] 0x8F15)
      (fun t => t.reg 15 == 0 && t.reg 1 == 5) = true := by
  decide

/-- V-A20. -/
theorem test_8XY6_shifts_vy :
    gives (start [(1, 0xAA), (2, 0x05)] 0x8126)
      (fun t => t.reg 1 == 2 && t.reg 15 == 1 && t.reg 2 == 5) = true := by
  decide

/-- V-A26. -/
theorem test_8XY6_of_vf :
    gives (start [(15, 2)] 0x81F6) (fun t => t.reg 1 == 1 && t.reg 15 == 0) = true := by decide

/-- V-A16. -/
theorem test_8XY7_borrows :
    gives (start [(1, 1)] 0x8127)
      (fun t => t.reg 1 == 0xFF && t.reg 15 == 0 && t.reg 2 == 0) = true := by
  decide

/-- V-A19. -/
theorem test_8XY7_of_vf :
    gives (start [(15, 1), (1, 2)] 0x81F7)
      (fun t => t.reg 1 == 0xFF && t.reg 15 == 0) = true := by
  decide

/-- V-A27. -/
theorem test_8XYE_shifts_vy :
    gives (start [(2, 0xFF)] 0x812E) (fun t => t.reg 1 == 0xFE && t.reg 15 == 1) = true := by decide

/-- V-A31. -/
theorem test_8XYE_of_vf :
    gives (start [(15, 0xC0)] 0x81FE)
      (fun t => t.reg 1 == 0x80 && t.reg 15 == 1) = true := by
  decide

/-- V-F17. -/
theorem test_9XY0_does_not_skip :
    gives (start [(1, 7), (2, 7)] 0x9120) (fun t => t.pc == 0x202) = true := by decide

/-- V-F18. -/
theorem test_9XY0_skips :
    gives (start [(1, 7), (2, 8)] 0x9120) (fun t => t.pc == 0x204) = true := by decide

/-- V-M2. -/
theorem test_ANNN_loads_index :
    gives (start [] 0xAFFF) (fun t => t.index == 0x0FFF && t.pc == 0x202) = true := by decide

/-- V-F24. -/
theorem test_BNNN_does_not_wrap :
    gives (start [(0, 0xFF)] 0xBFFF) (fun t => t.pc == 0x10FE) = true := by decide

/-- V-F23. -/
theorem test_BNNN_uses_v0 :
    gives (start [(3, 0x44)] 0xB300) (fun t => t.pc == 0x300) = true := by decide

/-- V-A41 to V-A43: whatever the random byte is, the mask is applied to it. -/
theorem test_CXNN_masks_the_free_value :
    (match step (start [] 0xC10F) with
      | .next t => t.reg 1 = Config.rnd 0 &&& 0x0F ∧ t.pc = 0x202
      | _ => False) := ⟨rfl, rfl⟩

/-- V-A42: with a mask of 0 a byte is still consumed. -/
theorem test_CXNN_consumes_a_byte :
    (match step (start [] 0xC100) with
      | .next t => t.rndCount = 1
      | _ => False) := rfl

/-- V-D1: the rows exported as the host sees them. -/
theorem test_DXYN_wraps_and_clips :
    gives ({ withBytes (start [(1, 62), (2, 30)] 0xD123) 0x210 [0xF0, 0x90, 0xFF] with
        index := 0x210 })
      (fun t => t.fb.rowExport 30 == [0xC0, 0, 0, 0, 0, 0, 0, 0x03] &&
      t.fb.rowExport 31 == [0x40, 0, 0, 0, 0, 0, 0, 0x02] && t.reg 15 == 0 && t.needsRedraw) = true := by
  decide

/-- V-D8: no row is drawn. -/
theorem test_DXYN_faults_whole :
    gives ({ withBytes (start [(15, 0x77)] 0xD122) 4095 [0x80] with index := 4095 })
      (fun t => t.fault == ⟨.memoryFault, .dataRead, 4096⟩ && !t.fb.pixel 0 0 && t.reg 15 == 0x77 &&
      !t.needsRedraw && t.pc == 0x200) = true := by
  decide

/-- V-K1. -/
theorem test_EX9E_skips_when_pressed :
    gives ((start [(4, 0x0A)] 0xE49E).keyPress 10) (fun t => t.pc == 0x204) = true := by decide

/-- V-K5. -/
theorem test_EX9E_invalid_key :
    gives (start [(4, 0x10)] 0xE49E)
      (fun t => t.fault == ⟨.invalidKey, .none, 16⟩ && t.pc == 0x200) = true := by
  decide

/-- V-K4. -/
theorem test_EXA1_does_not_skip_when_pressed :
    gives ((start [(4, 0x0A)] 0xE4A1).keyPress 10) (fun t => t.pc == 0x202) = true := by decide

/-- V-K6. -/
theorem test_EXA1_invalid_key :
    gives (start [(4, 0xFF)] 0xE4A1)
      (fun t => t.fault == ⟨.invalidKey, .none, 255⟩ && t.pc == 0x200) = true := by
  decide

/-- V-T2. -/
theorem test_FX07_reads_before_the_decrement :
    gives ({ start [] 0xF607 with dt := 0x2A, timerMode := .coupled })
      (fun t => t.reg 6 == 0x2A && t.dt == 0x29) = true := by
  decide

/-- V-K10: a held key does not end the wait. -/
theorem test_FX0A_waits :
    gives ((start [] 0xF50A).keyPress 7)
      (fun t => t.pc == 0x200 && t.haltedForKey && t.latch == none) = true := by
  decide

/-- V-K11. -/
theorem test_FX0A_takes_key_0 :
    gives (((start [(15, 0xEE)] 0xFF0A).keyPress 0).keyRelease 0)
      (fun t => t.reg 15 == 0 && t.pc == 0x202 && !t.haltedForKey && t.latch == none) = true := by
  decide

/-- V-T4. -/
theorem test_FX15_then_decrement :
    gives ({ start [(5, 3)] 0xF515 with timerMode := .coupled })
      (fun t => t.dt == 2) = true := by
  decide

/-- V-T6. -/
theorem test_FX18_sets_sound :
    gives (start [(0, 0x10)] 0xF018) (fun t => t.st == 0x10 && t.dt == 0) = true := by decide

/-- V-M4. -/
theorem test_FX1E_wraps :
    gives ({ start [(2, 1), (15, 0x55)] 0xF21E with index := 0xFFFF })
      (fun t => t.index == 0 && t.reg 15 == 0x55) = true := by
  decide

/-- V-M3. -/
theorem test_FX1E_has_no_overflow_flag :
    gives ({ start [(2, 2), (15, 0x55)] 0xF21E with index := 0x0FFF })
      (fun t => t.index == 0x1001 && t.reg 15 == 0x55) = true := by
  decide

/-- V-M7. -/
theorem test_FX29_glyph_F :
    gives (start [(0, 0x0F)] 0xF029) (fun t => t.index == 0x009B) = true := by decide

/-- V-M9. -/
theorem test_FX29_whole_byte :
    gives (start [(0, 0xFF)] 0xF029) (fun t => t.index == 0x054B) = true := by decide

/-- V-M13. -/
theorem test_FX33_digits :
    gives ({ start [(0, 123)] 0xF033 with index := 4093 })
      (fun t => t.mem.peek 4093 == 1 && t.mem.peek 4094 == 2 && t.mem.peek 4095 == 3 && t.pc == 0x202) = true := by
  decide

/-- V-M14. -/
theorem test_FX33_faults_whole :
    gives ({ start [(0, 123)] 0xF033 with index := 4094 })
      (fun t => t.fault == ⟨.memoryFault, .dataWrite, 4096⟩ && t.mem.peek 4094 == 0 && t.pc == 0x200) = true := by
  decide

/-- V-M19. -/
theorem test_FX55_stores_to_the_end :
    gives ({ start [(0, 0x77)] 0xF055 with index := 4095 })
      (fun t => t.mem.peek 4095 == 0x77 && t.index == 4095) = true := by
  decide

/-- V-M18. -/
theorem test_FX55_faults_whole :
    gives ({ start [(0, 0xA0)] 0xFF55 with index := 4081 })
      (fun t => t.fault == ⟨.memoryFault, .dataWrite, 4096⟩ && t.mem.peek 4081 == 0) = true := by
  decide

/-- V-M23. -/
theorem test_FX65_loads :
    gives ({ withBytes (start [(3, 0xEE)] 0xF265) 0x300 [1, 5, 6] with index := 0x300 })
      (fun t => t.reg 0 == 1 && t.reg 1 == 5 && t.reg 2 == 6 && t.reg 3 == 0xEE && t.index == 0x300) = true := by
  decide

/-- V-M22. -/
theorem test_FX65_faults_whole :
    gives ({ withBytes (start [(0, 1), (1, 2)] 0xF165) 4095 [0x99] with index := 4095 })
      (fun t => t.fault == ⟨.memoryFault, .dataRead, 4096⟩ && t.reg 0 == 1 && t.reg 1 == 2) = true := by
  decide

/-! ## Events and whole steps -/

/-- V-T9. -/
theorem test_unknown_word :
    gives ({ start [] 0x0000 with dt := 5, timerMode := .coupled })
      (fun t => t.dt == 4 && t.pc == 0x202 && t.event == some ⟨0x0000, 0x200⟩) = true := by
  decide

/-- V-T10. -/
theorem test_faulting_step_leaves_timers :
    gives ({ start [] 0x00EE with dt := 5, timerMode := .coupled })
      (fun t => t.fault.code == .stackUnderflow && t.dt == 5) = true := by
  decide

/-- V-F3. -/
theorem test_fetch_fault_at_the_last_byte :
    gives (State.reset.setPc 0xFFF)
      (fun t => t.fault == ⟨.memoryFault, .fetch, 4096⟩ && t.pc == 0xFFF) = true := by
  decide

/-- V-E8: an odd PC fetches. -/
theorem test_odd_pc :
    gives ((withBytes State.reset 0x201 [0x01, 0x00]).setPc 0x201)
      (fun t => t.event == some ⟨0x0100, 0x201⟩ && t.pc == 0x203) = true := by
  decide

/-- V-R4. -/
theorem test_faulted_core_stays :
    gives ({ start [] 0x6333 with fault := stackUnderflow })
      (fun t => t.fault == stackUnderflow && t.pc == 0x200 && t.reg 3 == 0) = true := by
  decide

/-- V-T8. -/
theorem test_tick :
    gives ({ State.reset with dt := 1, st := 2, hostEvents := [.tick] })
      (fun t => t.dt == 0 && t.st == 1 && t.hostEvents == []) = true := by
  decide

/-- V-K9. -/
theorem test_release_of_an_unpressed_key :
    gives ({ State.reset with hostEvents := [.keyRelease 7] })
      (fun t => t.latch == none) = true := by
  decide

/-- V-K8. -/
theorem test_last_release_wins :
    gives ({ State.reset.keyPress 2 with
        latch := some 7, hostEvents := [.keyRelease 2, .keyPress 9] })
      (fun t => t.latch == some 2 && !t.isPressed 2 && t.hostEvents == [.keyPress 9]) = true := by
  decide

set_option maxRecDepth 4096 in
/-- V-R3. -/
theorem test_reset_restores_the_font :
    gives ({ withBytes State.reset 0x050 [0x00] with
        fault := stackOverflow, hostEvents := [.reset] })
      (fun t => t.mem.peek 0x050 == 0xF0 && t.fault.code == .none) = true := by
  decide

/-- V-R2. -/
theorem test_load :
    gives ({ State.reset with hostEvents := [.load [0x63, 0x33]] })
      (fun t => t.mem.peek 0x200 == 0x63 && t.mem.peek 0x201 == 0x33 && t.mem.length == 2) = true := by
  decide

/-- V-R1: the font's corners in the memory nothing has written. -/
theorem test_font_corners :
    State.reset.mem.peek 0x050 = 0xF0 ∧ State.reset.mem.peek 0x054 = 0xF0 ∧
    State.reset.mem.peek 0x055 = 0x20 ∧ State.reset.mem.peek 0x09F = 0x80 ∧
    State.reset.mem.peek 0x04F = 0 ∧ State.reset.mem.peek 0x0A0 = 0 := by decide

/-- The text view of one row (44_display.md R197). -/
theorem test_text_line :
    (Framebuffer.blank.setPixel 1 0 true).textLine 0 =
      ['.', 'X'] ++ List.replicate 62 '.' := by decide

/-! ## Witnesses: for each obligation with hypotheses, a state and operands that meet all of them -/

/-- An instruction answers a next state. -/
def runs (i : Instr) (s : State) : Prop := ∃ t, exec i s = .next t

/-- An event is handled to a next state. -/
def handled (e : HostEvent) (s : State) : Prop := ∃ t, handleEvent e s = .next t

/-- A core waiting at the `FX0A` of V-K10. -/
def waiting : State := { start [] 0xF50A with haltedForKey := true, stepped := true }

theorem witness_LoadCopiesProgramBytes :
    ({ State.reset with stepped := true } : State).stepped = true ∧
    (List.replicate 3584 (0 : Byte)).length ≤ 3584 ∧ ([] : List Byte).length ≤ 3584 ∧
    State.reset.stepped = false := by
  simp only [List.length_replicate]; decide

theorem witness_IllegalLoadIsRefused :
    3584 < (List.replicate 3585 (0 : Byte)).length ∧ (List.replicate 3584 (0 : Byte)).length ≤ 3584 ∧
    ({ State.reset with stepped := true } : State).stepped = true ∧
    Running (start [] 0x6333) ∧ handled .step (start [] 0x6333) := by
  simp only [List.length_replicate]; exact ⟨by decide, by decide, trivial, rfl, _, rfl⟩

theorem witness_TickCountsBothTimersDown :
    runs (.opFX15 5) (start [(5, 3)] 0xF515) ∧ runs (.opFX18 0) (start [] 0xF018) ∧
    handled (.keyPress 1) State.reset :=
  ⟨⟨_, rfl⟩, ⟨_, rfl⟩, _, rfl⟩

theorem witness_KeyReleaseLatchesPressedKey :
    (State.reset.keyPress 15).isPressed 15 = true ∧ State.reset.isPressed 15 = false := by decide

theorem witness_StepTakesTheNextHostEvent :
    ({ State.reset with hostEvents := [.tick] } : State).hostEvents = .tick :: [] ∧
    State.reset.hostEvents = [] := ⟨rfl, rfl⟩

theorem witness_FetchReadsTwoBytesOrFaults :
    (State.reset.setPc 4094).pc.toNat ≤ 4094 ∧ 4095 ≤ (State.reset.setPc 4095).pc.toNat ∧
    4095 ≤ (State.reset.setPc 0xFFFF).pc.toNat := by decide

theorem witness_DecodeAgreesWithOpcodeTable :
    (⟨34, 0xF0FF, 0xF065⟩ : OpcodeRow) ∈ opcodeTable ∧ (0xFE65 : Word) &&& 0xF0FF = 0xF065 := by decide

theorem witness_EncodeOfDecodeIsTheWord : decode 0xFE65 = .instr (.opFX65 0xE) := by decide

theorem witness_StepRunsTheDecodedInstruction :
    (startAt 4094 0x3001).nextEvent = .step ∧ Running (startAt 4094 0x3001) ∧
    (startAt 4094 0x3001).pc.toNat ≤ 4094 ∧
    decode (wordOfBytes ((startAt 4094 0x3001).mem.peek 4094) ((startAt 4094 0x3001).mem.peek 4095)) =
      .instr (.op3XNN 0 1) := ⟨rfl, rfl, by decide, by decide⟩

theorem witness_UnknownWordAdvancesAndReports :
    (start [] 0x00E1).nextEvent = .step ∧ Running (start [] 0x00E1) ∧
    (start [] 0x00E1).pc.toNat ≤ 4094 ∧
    0x00E1 = wordOfBytes ((start [] 0x00E1).mem.peek 0x200) ((start [] 0x00E1).mem.peek 0x201) ∧
    decode 0x00E1 = .unknown 0x00E1 ∧ (start [] 0x00E1).timerMode = .separate ∧
    ({ start [] 0x00E1 with timerMode := .coupled } : State).timerMode = .coupled :=
  ⟨rfl, rfl, by decide, by decide, by decide, rfl, rfl⟩

theorem witness_FaultedCoreStepDoesNothing :
    ({ State.reset with fault := stackOverflow } : State).nextEvent = .step ∧
    ¬ Running { State.reset with fault := stackOverflow } := ⟨rfl, by unfold Running; decide⟩

theorem witness_FetchFaultIsLatched :
    (State.reset.setPc 4095).nextEvent = .step ∧ Running (State.reset.setPc 4095) ∧
    4095 ≤ (State.reset.setPc 4095).pc.toNat := ⟨rfl, rfl, by decide⟩

theorem witness_CoupledStepCountsTimersDown :
    let s : State := { start [] 0x6333 with timerMode := .coupled, dt := 1 }
    s.nextEvent = .step ∧ Running s ∧ s.timerMode = .coupled ∧ s.pc.toNat ≤ 4094 ∧
    decode (wordOfBytes (s.mem.peek s.pc.toNat) (s.mem.peek (s.pc.toNat + 1))) =
      .instr (.op6XNN 3 0x33) ∧
    tabledFault (.op6XNN 3 0x33) s = none ∧
    ∀ x, (.op6XNN 3 0x33 : Instr) ≠ .opFX15 x ∧ (.op6XNN 3 0x33 : Instr) ≠ .opFX18 x :=
  ⟨rfl, rfl, rfl, by decide, by decide, rfl, fun _ => ⟨nofun, nofun⟩⟩

theorem witness_SeparateStepLeavesTimers :
    (start [(5, 3)] 0xF515).nextEvent = .step ∧ (start [(5, 3)] 0xF515).timerMode = .separate ∧
    ∃ t, step (start [(5, 3)] 0xF515) = .next t := ⟨rfl, rfl, _, rfl⟩

theorem witness_CallPushesReturnAddress :
    ({ State.reset with sp := 15 } : State).sp.val < 16 ∧ State.reset.sp.val < 16 := by decide

theorem witness_ReturnPopsReturnAddress :
    0 < ({ State.reset with sp := 1 } : State).sp.val ∧
    0 < ({ State.reset with sp := 16 } : State).sp.val := by decide

theorem witness_CallThenReturnRoundTrips :
    ({ State.reset with sp := 15 } : State).sp.val < 16 ∧
    ∃ t, exec (.op2NNN 0x300) { State.reset with sp := 15 } = .next t ∧
      (∀ i ∈ [Instr.op6XNN 0 1, .op1NNN 0x400], KeepsStack i) ∧
      ∃ u, execAll [.op6XNN 0 1, .op1NNN 0x400] t = .next u :=
  ⟨by decide, _, rfl, by simp [KeepsStack], _, rfl⟩

theorem witness_LogicActsBitByBitWithoutFlag : 0 < 8 ∧ 7 < 8 := by decide

theorem witness_AddSetsCarryLast : (14 : Nibble) ≠ 15 := by decide

theorem witness_SubtractsSetNoBorrowLast : (14 : Nibble) ≠ 15 := by decide

theorem witness_ShiftsOfVySetShiftedOutBitLast : (14 : Nibble) ≠ 15 := by decide

theorem witness_StoreDigitsWritesDecimal :
    ({ State.reset with index := 4093 } : State).index.toNat + 2 < 4096 := by decide

theorem witness_StoreRegistersWritesV0ToVx :
    ({ State.reset with index := 4080 } : State).index.toNat + (15 : Nibble).toNat < 4096 ∧
    (15 : Nibble).toNat ≤ (15 : Nibble).toNat := by decide

theorem witness_LoadRegistersReadsV0ToVx :
    ({ State.reset with index := 4095 } : State).index.toNat + (0 : Nibble).toNat < 4096 ∧
    (0 : Nibble).toNat ≤ (0 : Nibble).toNat := by decide

theorem witness_StoreAndLoadRegistersAreInverse :
    ({ State.reset with index := 4080 } : State).index.toNat + (15 : Nibble).toNat < 4096 := by decide

/-- V-M25, and the last place in memory where it can happen. -/
theorem witness_StoreIsSeenByNextFetch :
    let s : State := { State.reset with pc := 4092, index := 4094 }
    1 ≤ (1 : Nibble).toNat ∧ s.index = s.pc + 2 ∧ s.pc.toNat ≤ 4092 ∧
    s.index.toNat + (1 : Nibble).toNat < 4096 := by decide

/-- No row on the screen (V-D5), one row at the last address (V-D9), fifteen rows up to the end. -/
theorem witness_DrawXorsSpriteAndReportsCollision :
    SpriteInMemory { start [(2, 255)] 0xD12F with index := 0xFFFF } 2 15 ∧
    SpriteInMemory { start [(2, 31)] 0xD122 with index := 4095 } 2 2 ∧
    SpriteInMemory { start [] 0xD12F with index := 4081 } 2 15 := by
  unfold SpriteInMemory; decide

theorem witness_DrawingTwiceRestoresFramebuffer :
    let s : State := { start [(1, 62), (2, 30)] 0xD123 with index := 0x050 }
    SpriteInMemory s 2 3 ∧ ∃ t, exec (.opDXYN 1 2 3) s = .next t ∧
      ∃ u : State, u.fb = t.fb ∧ u.reg 1 = s.reg 1 ∧ u.reg 2 = s.reg 2 ∧ u.index = s.index ∧
        ∀ a, u.mem.peek a = s.mem.peek a :=
  ⟨by unfold SpriteInMemory; decide, _, rfl, _, rfl, rfl, rfl, rfl, fun _ => rfl⟩

theorem witness_FramebufferBytesWrapWithinTheRow :
    0 < 8 ∧ 7 < 8 ∧ (1 : BitVec 5) ≠ 0 ∧
    ∀ i, i < 8 → (4 : BitVec 6).toNat ≠ ((60 : BitVec 6).toNat + i) % 64 := by decide

theorem witness_HostViewsShowEveryPixel : 31 < 32 ∧ 7 < 8 ∧ 0 < 8 := by decide

theorem witness_KeySkipsTestTheKeyLevel :
    ((start [(4, 15)] 0xE49E).reg 4).toNat ≤ 15 ∧ ((start [] 0xE49E).reg 4).toNat ≤ 15 := by decide

theorem witness_KeyWaitTakesTheLatchedKey :
    State.reset.latch = none ∧ ({ State.reset with latch := some 0 } : State).latch = some 0 :=
  ⟨rfl, rfl⟩

theorem witness_TimerInstructionsMoveBetweenVxAndTimers :
    Running { State.reset with timerMode := .coupled } ∧
    ({ State.reset with timerMode := .coupled } : State).timerMode = .coupled := ⟨rfl, rfl⟩

theorem witness_OnlyNamedInstructionsWriteMemoryFbStack :
    runs (.opFX33 0) State.reset ∧ runs .op00E0 State.reset ∧ runs (.op2NNN 0x300) State.reset :=
  ⟨⟨_, rfl⟩, ⟨_, rfl⟩, _, rfl⟩

theorem witness_InstructionsKeepHostOwnedState :
    runs (.opFX0A 0) { State.reset with needsRedraw := true } ∧
    ({ State.reset with needsRedraw := true } : State).needsRedraw = true := ⟨⟨_, rfl⟩, rfl⟩

theorem witness_InstructionsIgnoreSoundTimerAndFlags : runs (.opFX18 0) State.reset := ⟨_, rfl⟩

theorem witness_FlagRegisterFollowsItsTable :
    runs (.op8XYE 15 15) (start [(15, 0x80)] 0x8FFE) ∧
    tabledFault (.op8XYE 15 15) (start [(15, 0x80)] 0x8FFE) = none ∧
    runs (.opDXYN 1 2 3) State.reset ∧ tabledFault (.opDXYN 1 2 3) State.reset = none ∧
    runs (.opFX65 14) State.reset ∧ tabledFault (.opFX65 14) State.reset = none ∧
    (14 : Nibble) ≠ 15 :=
  ⟨⟨_, rfl⟩, rfl, ⟨_, rfl⟩, by decide, ⟨_, rfl⟩, by decide, by decide⟩

theorem witness_StepKeepsMemoryCanonical :
    let s : State := { start [(0, 123)] 0xF033 with index := 4093 }
    MemoryCanonical s ∧ ∃ t, step s = .next t := ⟨by unfold MemoryCanonical; decide, _, rfl⟩

theorem witness_StepKeepsPcAndStackBounded :
    PcAndStackBounded (start [(0, 0xFF)] 0xBFFF) ∧ ∃ t, step (start [(0, 0xFF)] 0xBFFF) = .next t :=
  ⟨by unfold PcAndStackBounded; decide, _, rfl⟩

theorem witness_StepKeepsFaultLatchLegal :
    LatchLegal (start [(4, 0x10)] 0xE49E) ∧ (∃ t, step (start [(4, 0x10)] 0xE49E) = .next t) ∧
    LatchLegal { State.reset with fault := invalidKey 16 } :=
  ⟨⟨rfl, rfl⟩, ⟨_, rfl⟩, rfl, by decide, by decide, rfl⟩

theorem witness_StepKeepsKeyWaitAtFX0A :
    WaitsAtKey waiting ∧ waiting.haltedForKey = true ∧ ∃ t, step waiting = .next t :=
  ⟨fun _ => ⟨rfl, by decide, 5, by decide⟩, rfl, _, rfl⟩

end Sys2Proof.Tests
end

section
/-! The decoder against the opcode map (spec 30_encoding.md R81 to R90). A word is its fields packed
again, so encoding what the decoder reads gives the word back; and a word that a row accepts has, in the
fields the row's mask covers, the values of the row's pattern. -/

namespace Sys2Proof

/-! ## A word is its fields packed again (R81 to R83) -/

@[simp] theorem packNNN_fields (op : Word) : packNNN (fieldTop op) (fieldNNN op) = op :=
  BitVec.extractLsb'_append_extractLsb'_eq_extractLsb' (by rfl) |>.trans BitVec.extractLsb'_eq_self

@[simp] theorem packXNN_fields (op : Word) :
    packXNN (fieldTop op) (fieldX op) (fieldNN op) = op := by
  have hlow : fieldX op ++ fieldNN op = fieldNNN op :=
    BitVec.extractLsb'_append_extractLsb'_eq_extractLsb' (by rfl)
  rw [packXNN, hlow]
  exact packNNN_fields op

@[simp] theorem packXYN_fields (op : Word) :
    packXYN (fieldTop op) (fieldX op) (fieldY op) (fieldN op) = op := by
  have hlow : fieldY op ++ fieldN op = fieldNN op :=
    BitVec.extractLsb'_append_extractLsb'_eq_extractLsb' (by rfl)
  rw [packXYN, hlow]
  exact packXNN_fields op

theorem packNNN_eq_of_top {op : Word} {t : Nibble} (ht : fieldTop op = t) :
    packNNN t (fieldNNN op) = op := by
  simp [← ht]

theorem packXNN_eq_of_top {op : Word} {t : Nibble} (ht : fieldTop op = t) :
    packXNN t (fieldX op) (fieldNN op) = op := by
  simp [← ht]

theorem packXYN_eq_of_top_of_low {op : Word} {t n : Nibble} (ht : fieldTop op = t)
    (hn : fieldN op = n) : packXYN t (fieldX op) (fieldY op) n = op := by
  simp [← ht, ← hn]

theorem packX_eq_of_top_of_low {op : Word} {t : Nibble} {sub : Byte} (ht : fieldTop op = t)
    (hs : fieldNN op = sub) : packX t (fieldX op) sub = op := by
  simp [packX, ← ht, ← hs]

/-! ## Encoding what the decoder reads (R86 to R88) -/

theorem encode_of_decode8 {op : Word} {i : Instr} (ht : fieldTop op = 0x8)
    (h : decode8 op = .instr i) : encode i = op := by
  unfold decode8 at h
  split at h <;> cases h <;> next hn =>
    exact packXYN_eq_of_top_of_low ht (BitVec.eq_of_toNat_eq hn)

theorem encode_of_decodeE {op : Word} {i : Instr} (ht : fieldTop op = 0xE)
    (h : decodeE op = .instr i) : encode i = op := by
  unfold decodeE at h
  split at h <;> cases h <;> next hs =>
    exact packX_eq_of_top_of_low ht (BitVec.eq_of_toNat_eq hs)

theorem encode_of_decodeF {op : Word} {i : Instr} (ht : fieldTop op = 0xF)
    (h : decodeF op = .instr i) : encode i = op := by
  unfold decodeF at h
  split at h <;> cases h <;> next hs =>
    exact packX_eq_of_top_of_low ht (BitVec.eq_of_toNat_eq hs)

/-- Family 0 is matched by the whole word, families 5 and 9 ask for a trailing 0, and families 8, E and F
have decoders of their own; in the other families the top nibble alone fixes the instruction. Case `h_k` is top nibble `k - 1`. -/
theorem encode_of_decode {op : Word} {i : Instr} (h : decode op = .instr i) : encode i = op := by
  simp only [decode] at h
  split at h
  case h_1 =>
    split_ifs at h with hcls hret
    · cases h; exact hcls.symm
    · cases h; exact hret.symm
  case h_6 ht | h_10 ht =>
    split_ifs at h with hn
    cases h; exact packXYN_eq_of_top_of_low (BitVec.eq_of_toNat_eq ht) hn
  case h_9 ht => exact encode_of_decode8 (BitVec.eq_of_toNat_eq ht) h
  case h_14 ht =>
    cases h; exact packXYN_eq_of_top_of_low (BitVec.eq_of_toNat_eq ht) rfl
  case h_15 ht => exact encode_of_decodeE (BitVec.eq_of_toNat_eq ht) h
  case h_16 =>
    have hlt := (fieldTop op).isLt
    have ht : fieldTop op = 0xF := BitVec.eq_of_toNat_eq (by grind)
    exact encode_of_decodeF ht h
  case h_2 ht | h_3 ht | h_11 ht | h_12 ht =>
    cases h; exact packNNN_eq_of_top (BitVec.eq_of_toNat_eq ht)
  case h_4 ht | h_5 ht | h_7 ht | h_8 ht | h_13 ht =>
    cases h; exact packXNN_eq_of_top (BitVec.eq_of_toNat_eq ht)

/-! ## The opcode map (R85) -/

theorem Laws.EncodeInRow.all : ∀ i, Statement i
  | .op00E0 => op00E0
  | .op00EE => op00EE
  | .op1NNN nnn => op1NNN nnn
  | .op2NNN nnn => op2NNN nnn
  | .op3XNN x nn => op3XNN x nn
  | .op4XNN x nn => op4XNN x nn
  | .op5XY0 x y => op5XY0 x y
  | .op6XNN x nn => op6XNN x nn
  | .op7XNN x nn => op7XNN x nn
  | .op8XY0 x y => op8XY0 x y
  | .op8XY1 x y => op8XY1 x y
  | .op8XY2 x y => op8XY2 x y
  | .op8XY3 x y => op8XY3 x y
  | .op8XY4 x y => op8XY4 x y
  | .op8XY5 x y => op8XY5 x y
  | .op8XY6 x y => op8XY6 x y
  | .op8XY7 x y => op8XY7 x y
  | .op8XYE x y => op8XYE x y
  | .op9XY0 x y => op9XY0 x y
  | .opANNN nnn => opANNN nnn
  | .opBNNN nnn => opBNNN nnn
  | .opCXNN x nn => opCXNN x nn
  | .opDXYN x y n => opDXYN x y n
  | .opEX9E x => opEX9E x
  | .opEXA1 x => opEXA1 x
  | .opFX07 x => opFX07 x
  | .opFX0A x => opFX0A x
  | .opFX15 x => opFX15 x
  | .opFX18 x => opFX18 x
  | .opFX1E x => opFX1E x
  | .opFX29 x => opFX29 x
  | .opFX33 x => opFX33 x
  | .opFX55 x => opFX55 x
  | .opFX65 x => opFX65 x

theorem opcodeTable_eq_of_number_eq :
    ∀ r ∈ opcodeTable, ∀ r' ∈ opcodeTable, r.number = r'.number → r = r' := by decide

/-- Two rows differ in a bit that both masks cover. -/
theorem opcodeTable_eq_of_overlap : ∀ r ∈ opcodeTable, ∀ r' ∈ opcodeTable,
    r.pattern &&& r'.mask = r'.pattern &&& r.mask → r = r' := by decide

/-- The row of the instruction that the decoder reads accepts the word. -/
theorem OpcodeRow.accepts_of_decode {op : Word} {i : Instr} {r : OpcodeRow} (hr : r ∈ opcodeTable)
    (hd : decode op = .instr i) (hnum : rowNumber i = r.number) : op &&& r.mask = r.pattern := by
  obtain ⟨r', hr', hnum', haccepts⟩ := Laws.EncodeInRow.all i
  have hrow : r' = r := opcodeTable_eq_of_number_eq r' hr' r hr (hnum'.trans hnum)
  rwa [hrow, encode_of_decode hd] at haccepts

/-! ## What a row's mask says of the fields (R81, R82, R85) -/

@[simp] theorem fieldTop_and (a b : Word) : fieldTop (a &&& b) = fieldTop a &&& fieldTop b :=
  BitVec.extractLsb'_and

@[simp] theorem fieldN_and (a b : Word) : fieldN (a &&& b) = fieldN a &&& fieldN b :=
  BitVec.extractLsb'_and

@[simp] theorem fieldNN_and (a b : Word) : fieldNN (a &&& b) = fieldNN a &&& fieldNN b :=
  BitVec.extractLsb'_and

theorem fieldTop_of_accepts {op : Word} {r : OpcodeRow} (hr : r ∈ opcodeTable)
    (h : op &&& r.mask = r.pattern) : fieldTop op = fieldTop r.pattern := by
  have hmask : ∀ r ∈ opcodeTable, fieldTop r.mask = BitVec.allOnes 4 := by decide
  rw [← h, fieldTop_and, hmask r hr, BitVec.and_allOnes]

theorem fieldN_of_accepts {op : Word} {r : OpcodeRow} (hmask : fieldN r.mask = BitVec.allOnes 4)
    (h : op &&& r.mask = r.pattern) : fieldN op = fieldN r.pattern := by
  rw [← h, fieldN_and, hmask, BitVec.and_allOnes]

theorem fieldNN_of_accepts {op : Word} {r : OpcodeRow} (hmask : fieldNN r.mask = BitVec.allOnes 8)
    (h : op &&& r.mask = r.pattern) : fieldNN op = fieldNN r.pattern := by
  rw [← h, fieldNN_and, hmask, BitVec.and_allOnes]

/-! ## The row the decoder finds (R85 to R88) -/

/-- The number of the row that decode found, none for an unknown word. -/
def Decoded.row? : Decoded → Option Nat
  | .instr i => some (rowNumber i)
  | .unknown _ => none

theorem Decoded.row?_eq_some_iff {d : Decoded} {k : Nat} :
    d.row? = some k ↔ ∃ i, d = .instr i ∧ rowNumber i = k := by
  cases d <;> simp [Decoded.row?]

/-- A row's mask covers the whole word, the top nibble alone, the top and the last nibble, or the top
nibble and the trailing byte. -/
theorem opcodeTable_mask : ∀ r ∈ opcodeTable,
    r.mask = 0xFFFF ∨ r.mask = 0xF000 ∨ r.mask = 0xF00F ∨ r.mask = 0xF0FF := by decide

/-- Row by row under each mask: the fields that the mask covers are those that decode branches on. -/
theorem decode_row?_of_accepts {op : Word} {r : OpcodeRow} (hr : r ∈ opcodeTable)
    (h : op &&& r.mask = r.pattern) : (decode op).row? = some r.number := by
  have ht := fieldTop_of_accepts hr h
  rcases opcodeTable_mask r hr with hmask | hmask | hmask | hmask
  · have hop : op = r.pattern := by rw [← h, hmask]; exact BitVec.and_allOnes.symm
    subst hop
    fin_cases hr <;> simp at hmask <;> rfl
  · fin_cases hr <;> simp at hmask <;> (rw [decode, ht]; rfl)
  · have hn := fieldN_of_accepts (by rw [hmask]; rfl) h
    fin_cases hr <;> simp at hmask <;> (simp only [decode, decode8, ht, hn]; rfl)
  · have hnn := fieldNN_of_accepts (by rw [hmask]; rfl) h
    fin_cases hr <;> simp at hmask <;> (simp only [decode, decodeE, decodeF, ht, hnn]; rfl)

/-! ## The obligation -/

/-- Settles O11: what a row's mask fixes of a word is what decode branches on, encoding what decode reads
gives a word that the instruction's row accepts, and any two rows differ in a bit both masks cover. -/
theorem decodeAgreesWithOpcodeTable : Obligations.DecodeAgreesWithOpcodeTable := by
  refine ⟨rfl, fun op r hr => ⟨fun h => ?_, ?_⟩, fun op r r' hr hr' h h' => ?_⟩
  · exact Decoded.row?_eq_some_iff.mp (decode_row?_of_accepts hr h)
  · rintro ⟨i, hd, hnum⟩
    exact OpcodeRow.accepts_of_decode hr hd hnum
  · apply opcodeTable_eq_of_overlap r hr r' hr'
    rw [← h, ← h', BitVec.and_assoc, BitVec.and_assoc, BitVec.and_comm r.mask]

end Sys2Proof
end

section
/-! Fetch against its rule (spec 40_cycle.md R101): the word as a number, and the lowest offending address as
one maximum. -/

namespace Sys2Proof.Machine

/-! ## The word of two bytes as a number (20_memory.md R55) -/

theorem wordOfBytes_toNat (hi lo : Byte) : (wordOfBytes hi lo).toNat = hi.toNat * 256 + lo.toNat := by
  rw [wordOfBytes, BitVec.toNat_append, ← Nat.shiftLeft_add_eq_or_of_lt lo.isLt, Nat.shiftLeft_eq]

/-! ## A fetch that faults -/

/-- The first read faults at PC when PC is out of range, else the second at PC + 1 = 4096. -/
theorem State.fetch_error {s : State} (h : 4095 ≤ s.pc.toNat) :
    s.fetch = .error (memoryFault (max s.pc.toNat 4096) .fetch) := by
  rw [State.fetch_eq]
  by_cases hpc : 4096 ≤ s.pc.toNat
  · rw [if_pos hpc, Nat.max_eq_left hpc]
  · rw [if_neg hpc, if_pos (by omega), Nat.max_eq_right (by omega)]

/-- The latch holds 17 bits of address, enough for every PC and every `PC + 1`. -/
theorem memoryFault_info_toNat {a : Nat} (kind : AccessKind) (h : a < 2 ^ 17) :
    (memoryFault a kind).info.toNat = a :=
  (BitVec.toNat_ofNat a 17).trans (Nat.mod_eq_of_lt h)

/-! ## The obligation -/

/-- Settles O10: with PC at 4094 or below both reads succeed and the word is the two bytes as a number; from
4095 on the fault is at the larger of PC and 4096, which the latch's 17 bits hold. -/
theorem fetchReadsTwoBytesOrFaults : Obligations.FetchReadsTwoBytesOrFaults := by
  intro s
  refine ⟨fun h => ⟨_, State.fetch_ok h, wordOfBytes_toNat _ _⟩,
    fun h => ⟨_, State.fetch_error h, rfl, rfl, ?_⟩⟩
  have hpc := s.pc.isLt
  rw [memoryFault_info_toNat .fetch (by omega)]
  split <;> omega

end Sys2Proof.Machine
end

section
/-! Jumps and skips (spec 41_flow.md R121, R123 to R127). Each is one write of PC: the frame of such a
write is said once, then what PC becomes. -/

namespace Sys2Proof.Machine

open Sys2Proof.Safety

/-! ## Frames: no frame speaks of PC (40_cycle.md R103) -/

theorem unchanged_refl (w : Writes) (s : State) : Unchanged w s s := by
  simp [Unchanged]

theorem unchanged_setPc_iff {w : Writes} {s t : State} (target : Word) :
    Unchanged w s (t.setPc target) ↔ Unchanged w s t := Iff.rfl

theorem unchanged_setPc (w : Writes) (s : State) (target : Word) : Unchanged w s (s.setPc target) :=
  (unchanged_setPc_iff target).mpr (unchanged_refl w s)

theorem unchanged_skipIf (w : Writes) (s : State) (c : Bool) : Unchanged w s (s.skipIf c) := by
  rw [State.skipIf_eq]
  exact unchanged_setPc w s _

/-! ## Addresses as numbers (30_encoding.md R84) -/

@[simp] theorem immAddress_toNat (nnn : Imm12) : (immAddress nnn).toNat = nnn.toNat :=
  BitVec.toNat_setWidth_of_le (by decide)

@[simp] theorem regAsWord_toNat (b : Byte) : (regAsWord b).toNat = b.toNat :=
  BitVec.toNat_setWidth_of_le (by decide)

/-- The largest sum is `0xFFF + 0xFF`, which 16 bits hold (R127). -/
theorem immAddress_add_regAsWord_toNat (nnn : Imm12) (b : Byte) :
    (immAddress nnn + regAsWord b).toNat = nnn.toNat + b.toNat := by
  have hsum : nnn.toNat + b.toNat < 2 ^ 16 := by
    have := nnn.isLt
    have := b.isLt
    omega
  rw [BitVec.toNat_add, immAddress_toNat, regAsWord_toNat, Nat.mod_eq_of_lt hsum]

/-! ## PC after a comparison of two bytes (R123 to R126) -/

theorem State.skipIf_beq_pc (s : State) (a b : Byte) :
    (s.skipIf (a == b)).pc = s.pc + (if a.toNat = b.toNat then 4 else 2) := by
  by_cases h : a = b
  · simp [h]
  · simp [h, BitVec.toNat_inj]

theorem State.skipIf_bne_pc (s : State) (a b : Byte) :
    (s.skipIf (a != b)).pc = s.pc + (if a.toNat = b.toNat then 2 else 4) := by
  by_cases h : a = b
  · simp [h]
  · simp [h, BitVec.toNat_inj]

/-! ## The obligations -/

/-- Settles O22: the jump is one write of PC, and widening NNN to 16 bits keeps its number. -/
theorem jumpGoesToNNN : Obligations.JumpGoesToNNN :=
  fun nnn s => ⟨s.setPc (immAddress nnn), rfl, immAddress_toNat nnn, unchanged_setPc _ s _⟩

/-- Settles O23: the jump is one write of PC, and the sum of NNN and V0 fits its 16 bits. -/
theorem indexedJumpGoesToSum : Obligations.IndexedJumpGoesToSum :=
  fun nnn s => ⟨s.setPc (immAddress nnn + regAsWord (s.reg 0)), rfl,
    immAddress_add_regAsWord_toNat nnn (s.reg 0), unchanged_setPc _ s _⟩

/-- Settles O24: both are the shared skip, one on equality with NN and one on inequality. -/
theorem immediateSkipsCompareVxWithNN : Obligations.ImmediateSkipsCompareVxWithNN :=
  fun x nn s =>
    ⟨⟨s.skipIf (s.reg x == nn), rfl, s.skipIf_beq_pc _ _, unchanged_skipIf _ s _⟩,
      ⟨s.skipIf (s.reg x != nn), rfl, s.skipIf_bne_pc _ _, unchanged_skipIf _ s _⟩⟩

/-- Settles O25: both are the shared skip, one on equality of the two registers and one on inequality;
nothing is asked of `X` and `Y`, so they may be the same register. -/
theorem registerSkipsCompareVxWithVy : Obligations.RegisterSkipsCompareVxWithVy :=
  fun x y s =>
    ⟨⟨s.skipIf (s.reg x == s.reg y), rfl, s.skipIf_beq_pc _ _, unchanged_skipIf _ s _⟩,
      ⟨s.skipIf (s.reg x != s.reg y), rfl, s.skipIf_bne_pc _ _, unchanged_skipIf _ s _⟩⟩

end Sys2Proof.Machine
end

section
/-! Register loads, arithmetic, logic and shifts (spec 42_alu.md R140 to R150). Each ends in one of two shared
writes, `setReg` or `setWithFlag`, then PC + 2: what those two answer is said once, and an instruction adds
only its result and its flag as numbers. -/

namespace Sys2Proof.Machine

open Sys2Proof.Safety

/-! ## The two writes (R154) -/

/-- A frame that names `V[x]` is not left by a write to `V[x]`. -/
theorem unchanged_setReg {w : Writes} {s t : State} {x : Nibble} (b : Byte) (hx : x ∈ w.regs)
    (h : Unchanged w s t) : Unchanged w s (t.setReg x b) := by
  obtain ⟨hregs, hrest⟩ := h
  refine ⟨fun j hj => ?_, hrest⟩
  have hne : j ≠ x := fun e => hj (e ▸ hx)
  rw [State.reg_setReg, if_neg hne, hregs j hj]

/-- What every instruction answers that writes one register and no flag. -/
theorem setReg_advance_spec (s : State) (x : Nibble) (b : Byte) :
    (s.setReg x b).advance.reg x = b ∧ (s.setReg x b).advance.pc = s.pc + 2 ∧
      Unchanged { regs := [x] } s (s.setReg x b).advance := by
  refine ⟨?_, rfl, (unchanged_setPc_iff _).mpr (unchanged_setReg b ?_ (unchanged_refl _ s))⟩
  · rw [State.reg_advance, State.reg_setReg, if_pos rfl]
  · exact List.mem_singleton_self x

/-- What every instruction answers that writes a result and then a flag, as numbers: with `x = F` only the
flag is left. -/
theorem setWithFlag_advance_spec (s : State) (x : Nibble) {b : Byte} {g : Bool} {result flag : Nat}
    (hresult : b.toNat = result) (hflag : (flagByte g).toNat = flag) :
    (x ≠ 15 → ((s.setWithFlag x b g).advance.reg x).toNat = result) ∧
      ((s.setWithFlag x b g).advance.reg 15).toNat = flag ∧
      (s.setWithFlag x b g).advance.pc = s.pc + 2 ∧
      Unchanged { regs := [x, 15] } s (s.setWithFlag x b g).advance := by
  refine ⟨fun hx => ?_, ?_, rfl, (unchanged_setPc_iff _).mpr ?_⟩
  · have hvf : x ≠ vf := hx
    rw [State.reg_advance, State.reg_setWithFlag, if_neg hvf, if_pos rfl, hresult]
  · have hvf : (15 : Nibble) = vf := rfl
    rw [State.reg_advance, State.reg_setWithFlag, if_pos hvf, hflag]
  · exact unchanged_setReg _ (by simp [vf]) (unchanged_setReg _ (by simp) (unchanged_refl _ s))

/-! ## The flags as numbers (10_state.md R22) -/

theorem flagByte_toNat (g : Bool) : (flagByte g).toNat = g.toNat := by
  cases g <;> rfl

theorem carryFlag_toNat (a b : Byte) :
    (flagByte (carryFlag a b)).toNat = if a.toNat + b.toNat > 255 then 1 else 0 := by
  rw [flagByte_toNat, carryFlag, Bool.toNat, Bool.cond_decide]

theorem noBorrowFlag_toNat (a b : Byte) :
    (flagByte (noBorrowFlag a b)).toNat = if a.toNat ≥ b.toNat then 1 else 0 := by
  rw [flagByte_toNat, noBorrowFlag, Bool.toNat, Bool.cond_decide]

theorem lowBitFlag_toNat (b : Byte) : (flagByte (lowBitFlag b)).toNat = b.toNat % 2 := by
  rw [flagByte_toNat, lowBitFlag, BitVec.getLsbD, Nat.toNat_testBit, pow_zero, Nat.div_one]

/-- Bit 7 is the byte's highest, so nothing stands above it. -/
theorem highBitFlag_toNat (b : Byte) : (flagByte (highBitFlag b)).toNat = b.toNat / 128 := by
  have hb := b.isLt
  rw [flagByte_toNat, highBitFlag, BitVec.getLsbD, Nat.toNat_testBit]
  omega

/-! ## The results as numbers (R147 to R150, R152) -/

/-- A difference is exact without a borrow and 256 larger with one. -/
theorem byte_sub_toNat (a b : Byte) :
    (a - b).toNat = if a.toNat ≥ b.toNat then a.toNat - b.toNat else a.toNat + 256 - b.toNat := by
  have ha := a.isLt
  have hb := b.isLt
  rw [BitVec.toNat_sub]
  split <;> omega

theorem byte_shiftRight_one_toNat (b : Byte) : (b >>> 1).toNat = b.toNat / 2 := by
  rw [BitVec.toNat_ushiftRight, Nat.shiftRight_eq_div_pow, pow_one]

theorem byte_shiftLeft_one_toNat (b : Byte) : (b <<< 1).toNat = b.toNat * 2 % 256 := by
  rw [BitVec.toNat_shiftLeft, Nat.shiftLeft_eq, pow_one]

/-! ## The obligations -/

/-- Settles O31: the register written holds the word operation's result, which is the bit operation at each
place. -/
theorem logicActsBitByBitWithoutFlag : Obligations.LogicActsBitByBitWithoutFlag := by
  intro x y s
  refine ⟨?or, ?and, ?xor⟩
  case or =>
    obtain ⟨hreg, hpc, hframe⟩ := setReg_advance_spec s x (s.reg x ||| s.reg y)
    exact ⟨_, rfl, fun k _ => by rw [hreg, BitVec.getLsbD_or], hpc, hframe⟩
  case and =>
    obtain ⟨hreg, hpc, hframe⟩ := setReg_advance_spec s x (s.reg x &&& s.reg y)
    exact ⟨_, rfl, fun k _ => by rw [hreg, BitVec.getLsbD_and], hpc, hframe⟩
  case xor =>
    obtain ⟨hreg, hpc, hframe⟩ := setReg_advance_spec s x (s.reg x ^^^ s.reg y)
    exact ⟨_, rfl, fun k _ => by rw [hreg, BitVec.getLsbD_xor], hpc, hframe⟩

/-- Settles O32: the sum wraps modulo 256, the carry of the old values is the last write. -/
theorem addSetsCarryLast : Obligations.AddSetsCarryLast :=
  fun x _ s => ⟨_, rfl, setWithFlag_advance_spec s x (BitVec.toNat_add _ _) (carryFlag_toNat _ _)⟩

/-- Settles O33: the two subtractions differ in the order of the operands alone. -/
theorem subtractsSetNoBorrowLast : Obligations.SubtractsSetNoBorrowLast :=
  fun x _ s =>
    ⟨⟨_, rfl, setWithFlag_advance_spec s x (byte_sub_toNat _ _) (noBorrowFlag_toNat _ _)⟩,
      ⟨_, rfl, setWithFlag_advance_spec s x (byte_sub_toNat _ _) (noBorrowFlag_toNat _ _)⟩⟩

/-- Settles O34: a shift by one is a halving or a doubling modulo 256, and the bit lost is the remainder by 2
or the quotient by 128. -/
theorem shiftsOfVySetShiftedOutBitLast : Obligations.ShiftsOfVySetShiftedOutBitLast :=
  fun x _ s =>
    ⟨⟨_, rfl, setWithFlag_advance_spec s x (byte_shiftRight_one_toNat _) (lowBitFlag_toNat _)⟩,
      ⟨_, rfl, setWithFlag_advance_spec s x (byte_shiftLeft_one_toNat _) (highBitFlag_toNat _)⟩⟩

/-- Settles O29: both are the one register write, of NN and of `V[Y]`. -/
theorem loadImmediateAndCopySetVx : Obligations.LoadImmediateAndCopySetVx :=
  fun x y nn s => ⟨⟨_, rfl, setReg_advance_spec s x nn⟩, ⟨_, rfl, setReg_advance_spec s x (s.reg y)⟩⟩

/-- Settles O30: the register written holds the sum of two bytes, which wraps modulo 256. -/
theorem addImmediateWrapsWithoutFlag : Obligations.AddImmediateWrapsWithoutFlag := by
  intro x nn s
  obtain ⟨hreg, hpc, hframe⟩ := setReg_advance_spec s x (s.reg x + nn)
  exact ⟨_, rfl, by rw [hreg, BitVec.toNat_add], hpc, hframe⟩

end Sys2Proof.Machine
end

section
/-! The writes of the index register (spec 43_index_memory.md R170). Such an instruction writes `I` and PC + 2
and nothing else: the frame of that pair is said once, and an instruction adds only the number in `I`. -/

namespace Sys2Proof.Machine

open Sys2Proof.Safety

/-! ## The write of `I` -/

/-- A frame that names `I` is not left by a write to `I`. -/
theorem unchanged_setIndex {w : Writes} {s t : State} (i : Word) (hw : w.index = true)
    (h : Unchanged w s t) : Unchanged w s (t.setIndex i) := by
  obtain ⟨hregs, hmem, -, hrest⟩ := h
  exact ⟨hregs, hmem, fun hnot => absurd hw (Bool.eq_false_iff.mp hnot), hrest⟩

/-- What every instruction answers that writes `I` alone, as a number. -/
theorem setIndex_advance_spec (s : State) {i : Word} {n : Nat} (hi : i.toNat = n) :
    (s.setIndex i).advance.index.toNat = n ∧ (s.setIndex i).advance.pc = s.pc + 2 ∧
      Unchanged { index := true } s (s.setIndex i).advance :=
  ⟨hi, rfl, (unchanged_setPc_iff _).mpr (unchanged_setIndex i rfl (unchanged_refl _ s))⟩

/-! ## The obligation -/

/-- Settles O36: the word written to `I` is NNN widened to 16 bits, which keeps its number. -/
theorem loadIndexSetsI : Obligations.LoadIndexSetsI :=
  fun nnn s => ⟨_, rfl, setIndex_advance_spec s (immAddress_toNat nnn)⟩

end Sys2Proof.Machine
end

section
/-! The display (spec 44_display.md R190, R193, R194, R199, R200): the frames of a write to the framebuffer and
of one to the redraw flag, and the columns a framebuffer byte covers, counted around the row. -/

namespace Sys2Proof.Machine

open Sys2Proof.Safety

/-! ## The two writes of the display -/

/-- A frame that names the framebuffer is not left by a write of it. -/
theorem unchanged_setFb {w : Writes} {s t : State} (fb : Framebuffer) (hw : w.fb = true)
    (h : Unchanged w s t) : Unchanged w s { t with fb := fb } := by
  obtain ⟨hregs, hmem, hindex, hstack, hdt, hst, hhalted, hredraw, hfault, -, hrest⟩ := h
  exact ⟨hregs, hmem, hindex, hstack, hdt, hst, hhalted, hredraw, hfault,
    fun hnot => absurd hw (Bool.eq_false_iff.mp hnot), hrest⟩

/-- A frame that names the redraw flag is not left by a write of it: `markRedraw` sets it, `redrawAck` clears
it. -/
theorem unchanged_setNeedsRedraw {w : Writes} {s t : State} (flag : Bool) (hw : w.redraw = true)
    (h : Unchanged w s t) : Unchanged w s { t with needsRedraw := flag } := by
  obtain ⟨hregs, hmem, hindex, hstack, hdt, hst, hhalted, -, hrest⟩ := h
  exact ⟨hregs, hmem, hindex, hstack, hdt, hst, hhalted,
    fun hnot => absurd hw (Bool.eq_false_iff.mp hnot), hrest⟩

/-! ## The columns of a byte (R193) -/

/-- Adding columns as 6-bit words is adding their numbers modulo 64. -/
theorem ofNat_column_add (x : BitVec 6) (i : Nat) :
    BitVec.ofNat 6 ((x.toNat + i) % 64) = x + BitVec.ofNat 6 i := by
  apply BitVec.eq_of_toNat_eq
  simp

theorem columnsFrom_add (x : BitVec 6) {i : Nat} (hi : i < 64) :
    columnsFrom x (x + BitVec.ofNat 6 i) = i :=
  (eq_add_ofNat_iff x _ hi).mp rfl

/-- A column is as far around the row from `x` as `columnsFrom` says. -/
theorem toNat_eq_add_columnsFrom (x col : BitVec 6) :
    col.toNat = (x.toNat + columnsFrom x col) % 64 := by
  have hcol : col = x + BitVec.ofNat 6 (columnsFrom x col) :=
    (eq_add_ofNat_iff x col (col - x).isLt).mpr rfl
  calc col.toNat = (x + BitVec.ofNat 6 (columnsFrom x col)).toNat := by rw [← hcol]
    _ = (x.toNat + columnsFrom x col) % 64 := by simp

/-! ## A byte written (R194) -/

theorem Framebuffer.pixel_setByte_inside (fb : Framebuffer) (x : BitVec 6) (y : BitVec 5) (b : Byte)
    {i : Nat} (hi : i < 8) :
    (fb.setByte x y b).pixel (x + BitVec.ofNat 6 i) y = b.getLsbD (7 - i) := by
  rw [Framebuffer.pixel_setByte, columnsFrom_add x (by omega), if_pos ⟨rfl, hi⟩]

theorem Framebuffer.pixel_setByte_outside (fb : Framebuffer) {x col : BitVec 6} {y row : BitVec 5}
    (b : Byte) (hout : row ≠ y ∨ ∀ i, i < 8 → col.toNat ≠ (x.toNat + i) % 64) :
    (fb.setByte x y b).pixel col row = fb.pixel col row := by
  rw [Framebuffer.pixel_setByte, if_neg]
  rintro ⟨hrow, hcol⟩
  rcases hout with hne | hfar
  · exact hne hrow
  · exact hfar _ hcol (toNat_eq_add_columnsFrom x col)

/-- Each pixel of the byte's eight takes the bit read from it. -/
theorem Framebuffer.setByte_getByte (fb : Framebuffer) (x : BitVec 6) (y : BitVec 5) :
    fb.setByte x y (fb.getByte x y) = fb := by
  apply Framebuffer.ext_pixel
  intro col row
  rw [Framebuffer.pixel_setByte]
  split
  case isTrue hin =>
    obtain ⟨rfl, hcol⟩ := hin
    exact Framebuffer.getByte_column fb x row col hcol
  case isFalse => rfl

/-! ## The obligations -/

/-- Settles O46: the column `(x + i) mod 64` is `x + i` in 6-bit words, which the pixel laws of `get_byte` and
`set_byte` speak of. -/
theorem framebufferBytesWrapWithinTheRow : Obligations.FramebufferBytesWrapWithinTheRow := by
  intro fb x y
  refine ⟨fun i hi => ?read, fun b i hi => ?write,
    fun b _ _ hout => fb.pixel_setByte_outside b hout, fb.setByte_getByte x y⟩
  case read => rw [ofNat_column_add, fb.getByte_bit x y hi]
  case write => rw [ofNat_column_add, fb.pixel_setByte_inside x y b hi]

/-- Settles O8: the event is one write of the redraw flag. -/
theorem redrawAckClearsTheFlag : Obligations.RedrawAckClearsTheFlag :=
  fun s => ⟨s.redrawAck, rfl, s.redrawAck_needsRedraw, s.redrawAck_pc,
    unchanged_setNeedsRedraw false rfl (unchanged_refl _ s)⟩

/-- Settles O43: a blank framebuffer is written, then the redraw flag, then PC. -/
theorem clearDisplayClearsEveryPixel : Obligations.ClearDisplayClearsEveryPixel :=
  fun s => ⟨_, rfl, Framebuffer.pixel_blank, rfl, rfl, (unchanged_setPc_iff _).mpr
    (unchanged_setNeedsRedraw true rfl (unchanged_setFb _ rfl (unchanged_refl _ s)))⟩

end Sys2Proof.Machine
end

section
/-! The keypad and the timers (spec 45_keypad_timer.md R222, R228 to R230). A release writes
the keys and the latch, a timer instruction a register or a timer: the frame of each is said once, then what
the end of a COUPLED STEP does to the timers. -/

namespace Sys2Proof.Machine

open Sys2Proof.Safety

/-! ## The frame of a key release -/

/-- A frame that names the keys and the latch is not left by a release, which writes those two. -/
theorem unchanged_keyRelease {w : Writes} {s t : State} (k : Key) (hkeysNamed : w.keys = true)
    (hlatchNamed : w.latch = true) (h : Unchanged w s t) : Unchanged w s (t.keyRelease k) := by
  obtain ⟨hregs, hmem, hindex, hstack, hdt, hst, hhalted, hredraw, hfault, hfb, -, -, hrest⟩ := h
  exact ⟨hregs, hmem, hindex, hstack, hdt, hst, hhalted, hredraw, hfault, hfb,
    fun hnot => absurd hkeysNamed (Bool.eq_false_iff.mp hnot),
    fun hnot => absurd hlatchNamed (Bool.eq_false_iff.mp hnot), hrest⟩

/-! ## The frames of a timer write -/

/-- A frame that names the delay timer is not left by a write of it. -/
theorem unchanged_setDt {w : Writes} {s t : State} (b : Byte) (hw : w.dt = true)
    (h : Unchanged w s t) : Unchanged w s { t with dt := b } := by
  obtain ⟨hregs, hmem, hindex, hstack, -, hrest⟩ := h
  exact ⟨hregs, hmem, hindex, hstack, fun hnot => absurd hw (Bool.eq_false_iff.mp hnot), hrest⟩

/-- A frame that names the sound timer is not left by a write of it. -/
theorem unchanged_setSt {w : Writes} {s t : State} (b : Byte) (hw : w.st = true)
    (h : Unchanged w s t) : Unchanged w s { t with st := b } := by
  obtain ⟨hregs, hmem, hindex, hstack, hdt, -, hrest⟩ := h
  exact ⟨hregs, hmem, hindex, hstack, hdt, fun hnot => absurd hw (Bool.eq_false_iff.mp hnot), hrest⟩

/-! ## The end of a STEP (40_cycle.md R104) -/

@[simp] theorem State.reg_endOfStep (s : State) (j : Nibble) : s.endOfStep.reg j = s.reg j :=
  State.reg_congr s.endOfStep_v j

theorem State.endOfStep_of_coupled {s : State} (hrun : Running s) (hmode : s.timerMode = .coupled) :
    s.endOfStep = s.timerUpdate :=
  if_pos ⟨hrun, hmode⟩

theorem State.endOfStep_dt_of_coupled {s : State} (hrun : Running s)
    (hmode : s.timerMode = .coupled) : s.endOfStep.dt.toNat = s.dt.toNat - 1 := by
  rw [State.endOfStep_of_coupled hrun hmode, State.timerUpdate_dt, countDown_toNat]

theorem State.endOfStep_st_of_coupled {s : State} (hrun : Running s)
    (hmode : s.timerMode = .coupled) : s.endOfStep.st.toNat = s.st.toNat - 1 := by
  rw [State.endOfStep_of_coupled hrun hmode, State.timerUpdate_st, countDown_toNat]

/-! ## The obligations -/

/-- Settles O6: the event clears one key and writes the latch under a test of that key's old level. -/
theorem keyReleaseLatchesPressedKey : Obligations.KeyReleaseLatchesPressedKey := by
  intro s k
  refine ⟨s.keyRelease k, rfl, fun j => ?level, fun hpressed => ?latched, fun hup => ?kept, rfl,
    unchanged_keyRelease k rfl rfl (unchanged_refl _ s)⟩
  case level =>
    rw [State.isPressed_keyRelease]
    by_cases h : j = k <;> simp [h]
  case latched => rw [State.keyRelease_latch, if_pos hpressed]
  case kept => rw [State.keyRelease_latch, if_neg (Bool.eq_false_iff.mp hup)]

/-- Settles O50: each instruction is one write and leaves the fault latch and the timer mode, so a running
COUPLED core counts down the timers that the instruction has left. -/
theorem timerInstructionsMoveBetweenVxAndTimers :
    Obligations.TimerInstructionsMoveBetweenVxAndTimers := by
  intro x s
  refine ⟨?readDelay, ?writeDelay, ?writeSound⟩
  case readDelay =>
    obtain ⟨hreg, hpc, hframe⟩ := setReg_advance_spec s x s.dt
    exact ⟨_, rfl, hreg, hpc, (State.reg_endOfStep _ x).trans hreg,
      fun hrun hmode => State.endOfStep_dt_of_coupled hrun hmode, hframe⟩
  case writeDelay =>
    exact ⟨_, rfl, rfl, rfl, fun hrun hmode => State.endOfStep_dt_of_coupled hrun hmode,
      (unchanged_setPc_iff _).mpr (unchanged_setDt _ rfl (unchanged_refl _ s))⟩
  case writeSound =>
    exact ⟨_, rfl, rfl, rfl, fun hrun hmode => State.endOfStep_st_of_coupled hrun hmode,
      (unchanged_setPc_iff _).mpr (unchanged_setSt _ rfl (unchanged_refl _ s))⟩

end Sys2Proof.Machine
end

section
/-! Who writes the timers (60_exceptions.md R261). Every instruction but `FX15` and `FX18` answers a state with
the timers and the timer mode it found, so a STEP outside COUPLED mode, whose end counts nothing down, changes
a timer only by one of these two. -/

namespace Sys2Proof.Machine

open Sys2Proof.Safety

/-! ## TICK -/

/-- The floor at 0 of a count down, as the rule writes it: truncated subtraction. -/
theorem countDown_toNat_eq_ite (b : Byte) :
    (countDown b).toNat = if 0 < b.toNat then b.toNat - 1 else 0 := by
  rw [countDown_toNat]
  split <;> omega

/-- A frame that names both timers is not left by a timer update. -/
theorem unchanged_timerUpdate {w : Writes} {s t : State} (hdtNamed : w.dt = true) (hstNamed : w.st = true)
    (h : Unchanged w s t) : Unchanged w s t.timerUpdate :=
  unchanged_setSt (countDown t.st) hstNamed (unchanged_setDt (countDown t.dt) hdtNamed h)

/-! ## The timers as they were -/

/-- `t` has the timers of `s`, and its timer mode, which decides whether the end of a STEP counts them down. -/
structure KeepsTimers (s t : State) : Prop where
  dt : t.dt = s.dt
  st : t.st = s.st
  timerMode : t.timerMode = s.timerMode

theorem KeepsTimers.refl (s : State) : KeepsTimers s s := ⟨rfl, rfl, rfl⟩

theorem KeepsTimers.trans {s t u : State} (h : KeepsTimers s t) (h' : KeepsTimers t u) :
    KeepsTimers s u :=
  ⟨h'.dt.trans h.dt, h'.st.trans h.st, h'.timerMode.trans h.timerMode⟩

theorem skipIf_keepsTimers (s : State) (c : Bool) : KeepsTimers s (s.skipIf c) :=
  ⟨s.skipIf_dt c, s.skipIf_st c, s.skipIf_timerMode c⟩

theorem skipOnKey_keepsTimers (x : Nibble) (pressed : Bool) (s : State) :
    KeepsTimers s (skipOnKey x pressed s) := by
  unfold skipOnKey
  split
  · exact ⟨rfl, rfl, rfl⟩
  · exact skipIf_keepsTimers s _

theorem storeThroughIndex_keepsTimers (bytes : List Byte) (s : State) :
    KeepsTimers s (storeThroughIndex bytes s) := by
  obtain ⟨-, -, hfault⟩ | ⟨-, hstored⟩ := storeThroughIndex_cases bytes s
  · rw [hfault]; exact ⟨rfl, rfl, rfl⟩
  · rw [hstored]; exact ⟨rfl, rfl, rfl⟩

theorem loadRegs_keepsTimers (s : State) (x : Nibble) : KeepsTimers s (s.loadRegs x) := by
  obtain ⟨v, hloaded, -⟩ := s.loadRegs_eq x
  rw [hloaded]; exact ⟨rfl, rfl, rfl⟩

/-- Outside COUPLED mode the end of a STEP keeps what execute has kept (40_cycle.md R104). -/
theorem KeepsTimers.endOfStep {s t : State} (h : KeepsTimers s t) (hmode : s.timerMode ≠ .coupled) :
    KeepsTimers s t.endOfStep := by
  obtain ⟨-, hcoupled, -⟩ | ⟨-, hsame⟩ := t.endOfStep_cases
  · exact absurd (h.timerMode ▸ hcoupled) hmode
  · rw [hsame]; exact h

/-! ## Instructions that branch before they answer -/

theorem exec00EE_keepsTimers (s : State) : ∃ t, exec .op00EE s = .next t ∧ KeepsTimers s t := by
  obtain ⟨-, hempty⟩ | ⟨_, _, hpopped⟩ := s.pop_cases
  · simp only [exec, exec00EE, hempty]
    exact ⟨_, rfl, rfl, rfl, rfl⟩
  · simp only [exec, exec00EE, hpopped]
    exact ⟨_, rfl, rfl, rfl, rfl⟩

theorem exec2NNN_keepsTimers (nnn : Imm12) (s : State) :
    ∃ t, exec (.op2NNN nnn) s = .next t ∧ KeepsTimers s t := by
  obtain ⟨-, hfull⟩ | ⟨_, hpushed⟩ := s.push_cases (s.pc + 2)
  · simp only [exec, exec2NNN, hfull]
    exact ⟨_, rfl, rfl, rfl, rfl⟩
  · simp only [exec, exec2NNN, hpushed]
    exact ⟨_, rfl, rfl, rfl, rfl⟩

theorem execDXYN_keepsTimers (x y n : Nibble) (s : State) :
    ∃ t, exec (.opDXYN x y n) s = .next t ∧ KeepsTimers s t := by
  simp only [exec, execDXYN]
  split
  · exact ⟨_, rfl, rfl, rfl, rfl⟩
  · exact ⟨_, rfl, rfl, rfl, rfl⟩

theorem execFX0A_keepsTimers (x : Nibble) (s : State) :
    ∃ t, exec (.opFX0A x) s = .next t ∧ KeepsTimers s t := by
  simp only [exec, execFX0A, State.takeReleased]
  cases s.latch with
  | none => exact ⟨_, rfl, rfl, rfl, rfl⟩
  | some k => exact ⟨_, rfl, rfl, rfl, rfl⟩

theorem execFX65_keepsTimers (x : Nibble) (s : State) :
    ∃ t, exec (.opFX65 x) s = .next t ∧ KeepsTimers s t := by
  simp only [exec, execFX65]
  split
  · exact ⟨_, rfl, rfl, rfl, rfl⟩
  · exact ⟨_, rfl, (loadRegs_keepsTimers s x).trans ⟨rfl, rfl, rfl⟩⟩

/-! ## Every instruction -/

theorem exec_keepsTimers {i : Instr} (hFX15 : ∀ x, i ≠ .opFX15 x) (hFX18 : ∀ x, i ≠ .opFX18 x)
    (s : State) : ∃ t, exec i s = .next t ∧ KeepsTimers s t := by
  cases i with
  | opFX15 x => exact absurd rfl (hFX15 x)
  | opFX18 x => exact absurd rfl (hFX18 x)
  | op00EE => exact exec00EE_keepsTimers s
  | op2NNN nnn => exact exec2NNN_keepsTimers nnn s
  | op3XNN | op4XNN | op5XY0 | op9XY0 => exact ⟨_, rfl, skipIf_keepsTimers s _⟩
  | opDXYN x y n => exact execDXYN_keepsTimers x y n s
  | opEX9E | opEXA1 => exact ⟨_, rfl, skipOnKey_keepsTimers _ _ s⟩
  | opFX0A x => exact execFX0A_keepsTimers x s
  | opFX33 | opFX55 => exact ⟨_, rfl, storeThroughIndex_keepsTimers _ s⟩
  | opFX65 x => exact execFX65_keepsTimers x s
  | op00E0 | op1NNN | op6XNN | op7XNN | op8XY0 | op8XY1 | op8XY2 | op8XY3 | op8XY4 | op8XY5 | op8XY6
  | op8XY7 | op8XYE | opANNN | opBNNN | opCXNN | opFX07 | opFX1E | opFX29 =>
    exact ⟨_, rfl, rfl, rfl, rfl⟩

/-- Everything an instruction can do to the timers. -/
theorem exec_timers_cases {i : Instr} {s t : State} (h : exec i s = .next t) :
    KeepsTimers s t ∨ (∃ x, i = .opFX15 x ∧ t.st = s.st) ∨ (∃ x, i = .opFX18 x ∧ t.dt = s.dt) := by
  by_cases hFX15 : ∃ x, i = .opFX15 x
  · obtain ⟨x, rfl⟩ := hFX15
    injection h with h
    exact .inr (.inl ⟨x, rfl, h ▸ rfl⟩)
  by_cases hFX18 : ∃ x, i = .opFX18 x
  · obtain ⟨x, rfl⟩ := hFX18
    injection h with h
    exact .inr (.inr ⟨x, rfl, h ▸ rfl⟩)
  obtain ⟨u, hu, hkeeps⟩ := exec_keepsTimers (not_exists.mp hFX15) (not_exists.mp hFX18) s
  injection hu.symm.trans h with hut
  exact .inl (hut ▸ hkeeps)

/-! ## The STEP event -/

/-- The word at PC is an `FX15` or an `FX18`. -/
def FetchesTimerWrite (s : State) : Prop :=
  ∃ x, s.fetch = .ok (encode (.opFX15 x)) ∨ s.fetch = .ok (encode (.opFX18 x))

/-- Outside COUPLED mode a cycle changes a timer only by the instruction it fetches. -/
theorem cycle_keepsTimers_or_fetch {s t : State} (hmode : s.timerMode ≠ .coupled)
    (h : cycle s = .next t) :
    KeepsTimers s t ∨ FetchesTimerWrite s := by
  obtain ⟨f, -, rfl⟩ | ⟨op, i, u, hfetch, hdecode, hexec, rfl⟩ | ⟨op, w, -, -, rfl⟩ := cycle_cases h
  · exact .inl ⟨rfl, rfl, rfl⟩
  · rw [← encode_of_decode hdecode] at hfetch
    obtain hkeeps | ⟨x, rfl, -⟩ | ⟨x, rfl, -⟩ := exec_timers_cases hexec
    · exact .inl (hkeeps.endOfStep hmode)
    · exact .inr ⟨x, .inl hfetch⟩
    · exact .inr ⟨x, .inr hfetch⟩
  · have hkeeps : KeepsTimers s (execUnknown w s) := ⟨rfl, rfl, rfl⟩
    exact .inl (hkeeps.endOfStep hmode)

/-- A STEP is no cycle at all or a cycle of the state marked as stepped, which fetches the same word. -/
theorem stepEvent_keepsTimers_or_fetch {s t : State} (hmode : s.timerMode ≠ .coupled)
    (h : stepEvent s = .next t) :
    KeepsTimers s t ∨ FetchesTimerWrite s := by
  obtain ⟨-, rfl⟩ | ⟨-, hcycle⟩ := stepEvent_cases h
  · exact .inl (.refl _)
  · have hmarked : KeepsTimers s s.markStepped := ⟨rfl, rfl, rfl⟩
    exact (cycle_keepsTimers_or_fetch (s := s.markStepped) hmode hcycle).imp_left hmarked.trans

/-! ## The obligation -/

/-- Settles O5: TICK is one timer update; the instructions and the events are taken one by one, and a STEP
outside COUPLED mode does to the timers what its instruction does. -/
theorem tickCountsBothTimersDown : Obligations.TickCountsBothTimersDown := by
  refine ⟨fun s => ?tick, fun i s t h => ?instruction, fun e s t h => ?event⟩
  case tick =>
    exact ⟨s.timerUpdate, rfl, countDown_toNat_eq_ite s.dt, countDown_toNat_eq_ite s.st, rfl,
      unchanged_timerUpdate rfl rfl (unchanged_refl _ s)⟩
  case instruction =>
    obtain ⟨hdt, hst, -⟩ | ⟨x, hi, hst⟩ | ⟨x, hi, hdt⟩ := exec_timers_cases h
    · exact ⟨.inl hdt, .inl hst⟩
    · exact ⟨.inr ⟨x, hi⟩, .inl hst⟩
    · exact ⟨.inl hdt, .inr ⟨x, hi⟩⟩
  case event =>
    cases e with
    | tick => exact .inl rfl
    | reset => exact .inr (.inl rfl)
    | load bytes =>
      obtain ⟨-, -, rfl⟩ := loadEvent_cases h
      exact .inr (.inr (.inl ⟨rfl, rfl⟩))
    | keyPress | keyRelease | redrawAck =>
      injection h with h
      exact .inr (.inr (.inl ⟨h ▸ rfl, h ▸ rfl⟩))
    | step =>
      by_cases hmode : s.timerMode = .coupled
      · exact .inr (.inr (.inr ⟨rfl, .inl hmode⟩))
      obtain ⟨hdt, hst, -⟩ | hfetch := stepEvent_keepsTimers_or_fetch hmode h
      · exact .inr (.inr (.inl ⟨hdt, hst⟩))
      · exact .inr (.inr (.inr ⟨rfl, .inr hfetch⟩))

end Sys2Proof.Machine
end

section
/-! Decode and encode against each other (spec 30_encoding.md sections 1, 3 and 4): a packed word has the
fields it was packed from, so the decoder reads back what the encoder wrote; and the words the decoder
answers as unknown, family by family. -/

namespace Sys2Proof

/-! ## The fields of a packed word (R82, R83) -/

@[simp] theorem fieldTop_packNNN (t : Nibble) (nnn : Imm12) : fieldTop (packNNN t nnn) = t :=
  BitVec.extractLsb'_append_eq_left

@[simp] theorem fieldNNN_packNNN (t : Nibble) (nnn : Imm12) : fieldNNN (packNNN t nnn) = nnn :=
  BitVec.extractLsb'_append_eq_right

@[simp] theorem fieldTop_packXNN (t x : Nibble) (nn : Byte) : fieldTop (packXNN t x nn) = t :=
  fieldTop_packNNN t (x ++ nn)

@[simp] theorem fieldX_packXNN (t x : Nibble) (nn : Byte) : fieldX (packXNN t x nn) = x := by
  unfold fieldX packXNN
  rw [BitVec.extractLsb'_append_eq_of_add_le (by decide)]
  exact BitVec.extractLsb'_append_eq_left

@[simp] theorem fieldNN_packXNN (t x : Nibble) (nn : Byte) : fieldNN (packXNN t x nn) = nn := by
  unfold fieldNN packXNN
  rw [BitVec.extractLsb'_append_eq_of_add_le (by decide)]
  exact BitVec.extractLsb'_append_eq_right

@[simp] theorem fieldTop_packXYN (t x y n : Nibble) : fieldTop (packXYN t x y n) = t :=
  fieldTop_packXNN t x (y ++ n)

@[simp] theorem fieldX_packXYN (t x y n : Nibble) : fieldX (packXYN t x y n) = x :=
  fieldX_packXNN t x (y ++ n)

/-- The two lower fields are the halves of the trailing byte. -/
theorem fieldY_eq_extract_fieldNN (op : Word) : fieldY op = (fieldNN op).extractLsb' 4 4 :=
  (BitVec.extractLsb'_extractLsb'_of_le (by decide)).symm

theorem fieldN_eq_extract_fieldNN (op : Word) : fieldN op = (fieldNN op).extractLsb' 0 4 :=
  (BitVec.extractLsb'_extractLsb'_of_le (by decide)).symm

@[simp] theorem fieldY_packXYN (t x y n : Nibble) : fieldY (packXYN t x y n) = y := by
  rw [fieldY_eq_extract_fieldNN]
  exact (congrArg _ (fieldNN_packXNN t x (y ++ n))).trans BitVec.extractLsb'_append_eq_left

@[simp] theorem fieldN_packXYN (t x y n : Nibble) : fieldN (packXYN t x y n) = n := by
  rw [fieldN_eq_extract_fieldNN]
  exact (congrArg _ (fieldNN_packXNN t x (y ++ n))).trans BitVec.extractLsb'_append_eq_right

/-! ## Decoding what the encoder writes (R86 to R88) -/

/-- Settles O12: the fields that decode branches on hold the literals that the encoder packed, the others the
operands; family 0 is two whole words. -/
theorem decodeOfEncodeIsTheInstruction : Obligations.DecodeOfEncodeIsTheInstruction := by
  intro i
  cases i with
  | op00E0 | op00EE => rfl
  | op1NNN | op2NNN | opANNN | opBNNN => simp [encode, decode]
  | op3XNN | op4XNN | op6XNN | op7XNN | opCXNN => simp [encode, decode]
  | op5XY0 | op9XY0 | opDXYN => simp [encode, decode]
  | op8XY0 | op8XY1 | op8XY2 | op8XY3 | op8XY4 | op8XY5 | op8XY6 | op8XY7 | op8XYE =>
    simp [encode, decode, decode8]
  | opEX9E | opEXA1 => simp [encode, packX, decode, decodeE]
  | opFX07 | opFX0A | opFX15 | opFX18 | opFX1E | opFX29 | opFX33 | opFX55 | opFX65 =>
    simp [encode, packX, decode, decodeF]

/-- Settles O13: a word is its fields packed again. -/
theorem encodeOfDecodeIsTheWord : Obligations.EncodeOfDecodeIsTheWord :=
  fun _ _ => encode_of_decode

/-! ## The fields as numbers (R81, R82) -/

theorem fieldTop_toNat (op : Word) : (fieldTop op).toNat = op.toNat / 4096 := by
  have := op.isLt
  rw [fieldTop, BitVec.extractLsb'_toNat, Nat.shiftRight_eq_div_pow]
  omega

theorem fieldN_toNat (op : Word) : (fieldN op).toNat = op.toNat % 16 := by
  rw [fieldN, BitVec.extractLsb'_toNat, Nat.shiftRight_zero]

theorem fieldN_eq_zero_iff (op : Word) : fieldN op = 0 ↔ op.toNat % 16 = 0 := by
  rw [← fieldN_toNat]
  exact BitVec.toNat_inj.symm

theorem fieldNN_toNat (op : Word) : (fieldNN op).toNat = op.toNat % 256 := by
  rw [fieldNN, BitVec.extractLsb'_toNat, Nat.shiftRight_zero]

/-! ## The unknown words of a family (R89, R90) -/

theorem decode8_eq_unknown_iff (op : Word) :
    decode8 op = .unknown op ↔ op.toNat % 16 ∈ [0x8, 0x9, 0xA, 0xB, 0xC, 0xD, 0xF] := by
  unfold decode8
  rw [fieldN_toNat]
  split
  case h_10 =>
    simp only [List.mem_cons, List.not_mem_nil, true_iff]
    grind
  all_goals simp [*]

theorem decodeE_eq_unknown_iff (op : Word) :
    decodeE op = .unknown op ↔ op.toNat % 256 ∉ [0x9E, 0xA1] := by
  unfold decodeE
  rw [fieldNN_toNat]
  split <;> simp_all

theorem decodeF_eq_unknown_iff (op : Word) : decodeF op = .unknown op ↔
    op.toNat % 256 ∉ [0x07, 0x0A, 0x15, 0x18, 0x1E, 0x29, 0x33, 0x55, 0x65] := by
  unfold decodeF
  rw [fieldNN_toNat]
  split <;> simp_all

/-- Settles O14: the top nibble picks the family, and in families 1 to 4, 6, 7 and A to D every word is an
instruction. Case `h_k` is top nibble `k - 1`. -/
theorem unknownWordsAreThoseListed : Obligations.UnknownWordsAreThoseListed := by
  intro op
  simp only [decode, fieldTop_toNat, fieldN_eq_zero_iff]
  split
  case h_1 htop =>
    split_ifs with hcls hret
    · simp [hcls]
    · simp [hret]
    · simp [htop, hcls, hret]
  case h_6 htop | h_10 htop => simp [htop]
  case h_9 htop => simp [htop, decode8_eq_unknown_iff]
  case h_15 htop => simp [htop, decodeE_eq_unknown_iff]
  case h_16 =>
    have hlt := op.isLt
    have htop : op.toNat / 4096 = 0xF := by grind
    simp [htop, decodeF_eq_unknown_iff]
  all_goals simp [*]

/-- Settles O15: each word is evaluated. -/
theorem specWordsDecodeAsTheSpecSays : Obligations.SpecWordsDecodeAsTheSpecSays := by
  unfold Obligations.SpecWordsDecodeAsTheSpecSays
  decide

end Sys2Proof
end

section
/-! Fault or completion (spec 60_exceptions.md R251 to R253). Every instruction answers one next state: where
the table of faults gives it a fault, the old state with the latch written, otherwise the state it leaves when
it completes. That state is written out here for the instructions that can fault or wait. -/

namespace Sys2Proof.Machine

open Sys2Proof.Safety

/-! ## The fault half -/

/-- The check before an access through `I` answers the fault the table gives. -/
theorem rangeFault_eq_indexFault (s : State) (count : Nat) (kind : AccessKind) :
    rangeFault (s.effectiveAddress 0) count kind = indexFault s count kind := rfl

theorem spriteRows_eq_rowsDrawn (b : Byte) (n : Nibble) :
    spriteRows b n = rowsDrawn b.toNat n.toNat := rfl

theorem invalidKey_eq (b : Byte) : invalidKey b = ⟨.invalidKey, .none, BitVec.ofNat 17 b.toNat⟩ := by
  rw [invalidKey, BitVec.ofNat_toNat]

/-! ## The completing half -/

theorem State.sp_sub_one_lt (s : State) : s.sp.val - 1 < Config.stackDepth :=
  lt_of_le_of_lt (Nat.sub_le_sub_right (Nat.le_of_lt_succ s.sp.isLt) 1) (by decide)

/-- The framebuffer and the collision of a `DXYN` whose bytes are in memory. -/
def State.drawn (s : State) (x y n : Nibble) : Framebuffer × Bool :=
  drawSprite s.mem s.index.toNat (spriteColumn (s.reg x)) (s.reg y).toNat (spriteRows (s.reg y) n) s.fb

/-- The state an instruction leaves where the table of faults gives it none. Of the instructions that cannot
fault only `FX0A`, which may wait, is written out. -/
def completed (i : Instr) (s : State) : State :=
  match i with
  | .op00EE =>
    ({ s with sp := s.sp - 1 }).setPc (s.stack[s.sp.val - 1]'s.sp_sub_one_lt)
  | .op2NNN nnn =>
    ({ s with stack := s.stack.setIfInBounds s.sp.val (s.pc + 2), sp := s.sp + 1 }).setPc
      (immAddress nnn)
  | .opDXYN x y n =>
    (({ s with fb := (s.drawn x y n).1 }.setReg vf (flagByte (s.drawn x y n).2)).markRedraw).advance
  | .opEX9E x => s.skipIf (s.isPressed ((s.reg x).setWidth 4) == true)
  | .opEXA1 x => s.skipIf (s.isPressed ((s.reg x).setWidth 4) == false)
  | .opFX0A x =>
    match s.latch with
    | none => { s with haltedForKey := true }
    | some k => ({ s with latch := none, haltedForKey := false }.setReg x (k.setWidth 8)).advance
  | .opFX33 x => ({ s with mem := s.mem.pokeBytes s.index.toNat (bcdDigits (s.reg x)) }).advance
  | .opFX55 x => ({ s with mem := s.mem.pokeBytes s.index.toNat (s.regsTo x) }).advance
  | .opFX65 x => (s.loadRegs x).advance
  | i =>
    match exec i s with
    | .next t => t
    | .fault _ | .refused _ => s

theorem completed_opFX0A_of_empty {x : Nibble} {s : State} (h : s.latch = none) :
    completed (.opFX0A x) s = { s with haltedForKey := true } := by
  simp only [completed, h]

theorem completed_opFX0A_of_latched {x : Nibble} {s : State} {k : Key} (h : s.latch = some k) :
    completed (.opFX0A x) s =
      ({ s with latch := none, haltedForKey := false }.setReg x (k.setWidth 8)).advance := by
  simp only [completed, h]

/-! ## Each instruction that can fault or wait -/

theorem storeThroughIndex_eq (bytes : List Byte) (s : State) :
    storeThroughIndex bytes s = (indexFault s bytes.length .dataWrite).elim
      ({ s with mem := s.mem.pokeBytes s.index.toNat bytes }).advance s.raise := by
  rw [storeThroughIndex, rangeFault_eq_indexFault]
  cases indexFault s bytes.length .dataWrite <;> rfl

theorem skipOnKey_eq (x : Nibble) (pressed : Bool) (s : State) :
    skipOnKey x pressed s = if 15 < (s.reg x).toNat then s.raise (invalidKey (s.reg x))
      else s.skipIf (s.isPressed ((s.reg x).setWidth 4) == pressed) := by
  unfold skipOnKey
  rw [keyOf_eq]
  by_cases h : 15 < (s.reg x).toNat
  · simp only [if_pos h]
  · simp only [if_neg h]

theorem exec_op00EE_eq (s : State) :
    exec .op00EE s = .next ((tabledFault .op00EE s).elim (completed .op00EE s) s.raise) := by
  obtain ⟨hempty, hpop⟩ | ⟨hpos, below, hpop⟩ := s.pop_cases
  · simp only [exec, exec00EE, hpop, tabledFault, if_pos hempty]
    rfl
  · have hsp : s.sp - 1 = ⟨s.sp.val - 1, Nat.lt_succ_of_lt below⟩ :=
      Fin.ext (Fin.val_sub_one_of_ne_zero (Fin.pos_iff_ne_zero.mp hpos))
    simp only [exec, exec00EE, hpop, tabledFault, if_neg hpos.ne', Option.elim, completed, hsp]

theorem exec_op2NNN_eq (nnn : Imm12) (s : State) : exec (.op2NNN nnn) s =
    .next ((tabledFault (.op2NNN nnn) s).elim (completed (.op2NNN nnn) s) s.raise) := by
  obtain ⟨hfull, hpush⟩ | ⟨hroom, hpush⟩ := s.push_cases (s.pc + 2)
  · have hfull : s.sp.val = 16 := hfull
    simp only [exec, exec2NNN, hpush, tabledFault, if_pos hfull]
    rfl
  · have hsp : s.sp + 1 = ⟨s.sp.val + 1, Nat.succ_lt_succ hroom⟩ :=
      Fin.ext (Fin.val_add_one_of_lt hroom)
    have hstack : s.stack.set s.sp.val (s.pc + 2) hroom =
        s.stack.setIfInBounds s.sp.val (s.pc + 2) :=
      Vector.ext fun j hj => by rw [Vector.getElem_set, Vector.getElem_setIfInBounds]
    simp only [exec, exec2NNN, hpush, tabledFault, if_neg hroom.ne, Option.elim, completed, hsp, hstack]

theorem exec_opDXYN_eq (x y n : Nibble) (s : State) : exec (.opDXYN x y n) s =
    .next ((tabledFault (.opDXYN x y n) s).elim (completed (.opDXYN x y n) s) s.raise) := by
  simp only [exec, execDXYN, rangeFault_eq_indexFault, tabledFault, ← spriteRows_eq_rowsDrawn]
  cases indexFault s (spriteRows (s.reg y) n) .dataRead <;> rfl

theorem exec_opEX9E_eq (x : Nibble) (s : State) : exec (.opEX9E x) s =
    .next ((tabledFault (.opEX9E x) s).elim (completed (.opEX9E x) s) s.raise) := by
  simp only [exec, execEX9E, skipOnKey_eq, invalidKey_eq, tabledFault, completed]
  split <;> rfl

theorem exec_opEXA1_eq (x : Nibble) (s : State) : exec (.opEXA1 x) s =
    .next ((tabledFault (.opEXA1 x) s).elim (completed (.opEXA1 x) s) s.raise) := by
  simp only [exec, execEXA1, skipOnKey_eq, invalidKey_eq, tabledFault, completed]
  split <;> rfl

theorem exec_opFX0A_eq (x : Nibble) (s : State) :
    exec (.opFX0A x) s = .next (completed (.opFX0A x) s) := by
  simp only [exec, execFX0A, State.takeReleased, completed]
  cases s.latch <;> rfl

theorem exec_opFX33_eq (x : Nibble) (s : State) : exec (.opFX33 x) s =
    .next ((tabledFault (.opFX33 x) s).elim (completed (.opFX33 x) s) s.raise) :=
  congrArg _ (storeThroughIndex_eq (bcdDigits (s.reg x)) s)

theorem exec_opFX55_eq (x : Nibble) (s : State) : exec (.opFX55 x) s =
    .next ((tabledFault (.opFX55 x) s).elim (completed (.opFX55 x) s) s.raise) := by
  simp only [exec, execFX55, storeThroughIndex_eq, State.regsTo_length]
  rfl

theorem exec_opFX65_eq (x : Nibble) (s : State) : exec (.opFX65 x) s =
    .next ((tabledFault (.opFX65 x) s).elim (completed (.opFX65 x) s) s.raise) := by
  simp only [exec, execFX65, rangeFault_eq_indexFault, tabledFault, completed]
  cases indexFault s (x.toNat + 1) .dataRead <;> rfl

/-! ## Every instruction -/

/-- What every instruction answers: the fault of the table alone, or the completed state. -/
theorem exec_eq (i : Instr) (s : State) :
    exec i s = .next ((tabledFault i s).elim (completed i s) s.raise) := by
  cases i with
  | op00EE => exact exec_op00EE_eq s
  | op2NNN nnn => exact exec_op2NNN_eq nnn s
  | opDXYN x y n => exact exec_opDXYN_eq x y n s
  | opEX9E x => exact exec_opEX9E_eq x s
  | opEXA1 x => exact exec_opEXA1_eq x s
  | opFX0A x => exact exec_opFX0A_eq x s
  | opFX33 x => exact exec_opFX33_eq x s
  | opFX55 x => exact exec_opFX55_eq x s
  | opFX65 x => exact exec_opFX65_eq x s
  | _ => rfl

theorem exec_of_fault {i : Instr} {s : State} {f : FaultLatch} (h : tabledFault i s = some f) :
    exec i s = .next (s.raise f) := by
  rw [exec_eq, h, Option.elim]

theorem exec_of_noFault {i : Instr} {s : State} (h : tabledFault i s = none) :
    exec i s = .next (completed i s) := by
  rw [exec_eq, h, Option.elim]

/-- Everything an instruction can have done. -/
theorem exec_cases {i : Instr} {s t : State} (h : exec i s = .next t) :
    (∃ f, tabledFault i s = some f ∧ t = s.raise f) ∨ (tabledFault i s = none ∧ t = completed i s) := by
  cases hf : tabledFault i s with
  | some f =>
    injection (exec_of_fault hf).symm.trans h with ht
    exact .inl ⟨f, rfl, ht.symm⟩
  | none =>
    injection (exec_of_noFault hf).symm.trans h with ht
    exact .inr ⟨rfl, ht.symm⟩

end Sys2Proof.Machine
end

section
/-! What no instruction touches (spec 10_state.md sections 4 to 7, 20_memory.md section 1, 60_exceptions.md
R252). One frame, shown once for the completed state and once for a raised fault, says which pieces of state
which instructions leave; the obligations read it off. -/

namespace Sys2Proof.Machine

open Sys2Proof.Safety

/-! ## The frame -/

/-- What instruction `i` may have changed of `s` in `t`, apart from the registers, `I`, PC, the timers and the
random source's position. -/
structure InstrFrame (i : Instr) (s t : State) : Prop where
  fault : t.fault = (tabledFault i s).getD s.fault
  mem : t.mem = s.mem ∨ ∃ x, i = .opFX33 x ∨ i = .opFX55 x
  fb : t.fb = s.fb ∨ i = .op00E0 ∨ ∃ x y n, i = .opDXYN x y n
  stack : (t.stack = s.stack ∧ t.sp = s.sp) ∨ i = .op00EE ∨ ∃ nnn, i = .op2NNN nnn
  keys : t.keys = s.keys
  latch : (t.latch = s.latch ∧ t.haltedForKey = s.haltedForKey) ∨ ∃ x, i = .opFX0A x
  redraw : s.needsRedraw = true → t.needsRedraw = true
  timerMode : t.timerMode = s.timerMode
  event : t.event = s.event
  stepped : t.stepped = s.stepped
  hostEvents : t.hostEvents = s.hostEvents

theorem raise_frame {i : Instr} {s : State} {f : FaultLatch} (h : tabledFault i s = some f) :
    InstrFrame i s (s.raise f) := by
  refine ⟨?_, .inl rfl, .inl rfl, .inl ⟨rfl, rfl⟩, rfl, .inl ⟨rfl, rfl⟩, id, rfl, rfl, rfl, rfl⟩
  rw [h]; rfl

theorem refl_frame {i : Instr} {s : State} (h : tabledFault i s = none) : InstrFrame i s s := by
  refine ⟨?_, .inl rfl, .inl rfl, .inl ⟨rfl, rfl⟩, rfl, .inl ⟨rfl, rfl⟩, id, rfl, rfl, rfl, rfl⟩
  rw [h]; rfl

theorem skipIf_frame {i : Instr} {s : State} (h : tabledFault i s = none) (c : Bool) :
    InstrFrame i s (s.skipIf c) := by
  rw [State.skipIf_eq]
  exact { refl_frame h with }

/-- Each instruction adds its own clauses to those of a state left alone. -/
theorem completed_frame {i : Instr} {s : State} (h : tabledFault i s = none) :
    InstrFrame i s (completed i s) := by
  have hsame := refl_frame h
  cases i with
  | op00E0 => exact { hsame with fb := .inr (.inl rfl), redraw := fun _ => rfl }
  | opDXYN x y n => exact { hsame with fb := .inr (.inr ⟨x, y, n, rfl⟩), redraw := fun _ => rfl }
  | op00EE => exact { hsame with stack := .inr (.inl rfl) }
  | op2NNN nnn => exact { hsame with stack := .inr (.inr ⟨nnn, rfl⟩) }
  | opFX33 x => exact { hsame with mem := .inr ⟨x, .inl rfl⟩ }
  | opFX55 x => exact { hsame with mem := .inr ⟨x, .inr rfl⟩ }
  | opFX0A x =>
    simp only [completed]
    cases s.latch <;> exact { hsame with latch := .inr ⟨x, rfl⟩ }
  | opFX65 x =>
    obtain ⟨v, hloaded, -⟩ := s.loadRegs_eq x
    rw [completed, hloaded]
    exact { hsame with }
  | op3XNN | op4XNN | op5XY0 | op9XY0 | opEX9E | opEXA1 => exact skipIf_frame h _
  | op1NNN | op6XNN | op7XNN | op8XY0 | op8XY1 | op8XY2 | op8XY3 | op8XY4 | op8XY5 | op8XY6 | op8XY7
  | op8XYE | opANNN | opBNNN | opCXNN | opFX07 | opFX15 | opFX18 | opFX1E | opFX29 =>
    exact { hsame with }

theorem completed_fault {i : Instr} {s : State} (h : tabledFault i s = none) :
    (completed i s).fault = s.fault := by
  rw [(completed_frame h).fault, h, Option.getD]

theorem exec_frame {i : Instr} {s t : State} (h : exec i s = .next t) : InstrFrame i s t := by
  obtain ⟨f, hf, rfl⟩ | ⟨hnone, rfl⟩ := exec_cases h
  · exact raise_frame hf
  · exact completed_frame hnone

/-! ## The obligations read off the frame -/

/-- Settles O51: the fault half writes the latch and the completing half leaves it. -/
theorem execFaultsExactlyAsTabled : Obligations.ExecFaultsExactlyAsTabled := by
  intro i s
  cases hf : tabledFault i s with
  | some f => exact ⟨s.raise f, exec_of_fault hf, rfl⟩
  | none => exact ⟨completed i s, exec_of_noFault hf, completed_fault hf⟩

/-- Settles O52: three clauses of the frame. -/
theorem onlyNamedInstructionsWriteMemoryFbStack : Obligations.OnlyNamedInstructionsWriteMemoryFbStack :=
  fun _ _ _ h => ⟨(exec_frame h).mem, (exec_frame h).fb, (exec_frame h).stack⟩

/-- Settles O53: the other clauses of the frame. -/
theorem instructionsKeepHostOwnedState : Obligations.InstructionsKeepHostOwnedState := by
  intro i s t h
  have hframe := exec_frame h
  exact ⟨hframe.keys, hframe.latch, hframe.redraw, hframe.timerMode, hframe.event, hframe.stepped,
    hframe.hostEvents⟩

/-! ## Sound timer and flags are not read (10_state.md sections 5 and 6) -/

/-- The state with other values of the sound timer and the two flags. -/
def State.withOutputs (s : State) (st : Byte) (redraw halted : Bool) : State :=
  { s with st := st, needsRedraw := redraw, haltedForKey := halted }

/-- `t'` is `t` but for the sound timer and the two flags, and each of these is the given one or `t`'s. -/
def DiffersInOutputs (st : Byte) (redraw halted : Bool) (t t' : State) : Prop :=
  t' = t.withOutputs t'.st t'.needsRedraw t'.haltedForKey ∧ (t'.st = st ∨ t'.st = t.st) ∧
    (t'.needsRedraw = redraw ∨ t'.needsRedraw = t.needsRedraw) ∧
    (t'.haltedForKey = halted ∨ t'.haltedForKey = t.haltedForKey)

theorem tabledFault_withOutputs (i : Instr) (s : State) (st : Byte) (redraw halted : Bool) :
    tabledFault i (s.withOutputs st redraw halted) = tabledFault i s := by
  cases i <;> rfl

theorem State.v_eq_of_reg {s t : State} (h : ∀ j, t.reg j = s.reg j) : t.v = s.v := by
  apply Vector.ext
  intro k hk
  have hreg := h (BitVec.ofNat 4 k)
  simpa [State.reg, Nat.mod_eq_of_lt hk] using hreg

theorem loadRegs_withOutputs (s : State) (x : Nibble) (st : Byte) (redraw halted : Bool) :
    (s.withOutputs st redraw halted).loadRegs x = (s.loadRegs x).withOutputs st redraw halted := by
  obtain ⟨v, hv, hreg⟩ := s.loadRegs_eq x
  obtain ⟨v', hv', hreg'⟩ := (s.withOutputs st redraw halted).loadRegs_eq x
  have hsame : v' = v :=
    State.v_eq_of_reg (s := { s with v := v }) (t := { s with v := v' })
      fun j => (hreg' j).trans (hreg j).symm
  rw [hv, hv', hsame]
  rfl

theorem differsInOutputs_withOutputs (st : Byte) (redraw halted : Bool) (t : State) :
    DiffersInOutputs st redraw halted t (t.withOutputs st redraw halted) :=
  ⟨rfl, .inl rfl, .inl rfl, .inl rfl⟩

theorem differsInOutputs_skipIf (s : State) (c : Bool) (st : Byte) (redraw halted : Bool) :
    DiffersInOutputs st redraw halted (s.skipIf c) ((s.withOutputs st redraw halted).skipIf c) := by
  cases c <;> exact differsInOutputs_withOutputs _ _ _ _

theorem completed_withOutputs (i : Instr) (s : State) (st : Byte) (redraw halted : Bool) :
    DiffersInOutputs st redraw halted (completed i s) (completed i (s.withOutputs st redraw halted)) := by
  cases i with
  | op00E0 | opDXYN => exact ⟨rfl, .inl rfl, .inr rfl, .inl rfl⟩
  | opFX18 => exact ⟨rfl, .inr rfl, .inl rfl, .inl rfl⟩
  | opFX0A x =>
    simp only [completed, State.withOutputs]
    cases s.latch <;> exact ⟨rfl, .inl rfl, .inl rfl, .inr rfl⟩
  | opFX65 x =>
    simp only [completed, loadRegs_withOutputs]
    exact differsInOutputs_withOutputs _ _ _ _
  | op3XNN | op4XNN | op5XY0 | op9XY0 | opEX9E | opEXA1 =>
    exact differsInOutputs_skipIf s _ st redraw halted
  | op00EE | op1NNN | op2NNN | op6XNN | op7XNN | op8XY0 | op8XY1 | op8XY2 | op8XY3 | op8XY4 | op8XY5
  | op8XY6 | op8XY7 | op8XYE | opANNN | opBNNN | opCXNN | opFX07 | opFX15 | opFX1E | opFX29 | opFX33
  | opFX55 =>
    exact differsInOutputs_withOutputs _ _ _ _

/-- Settles O54: neither half of an instruction reads the three, and the table of faults does not either. -/
theorem instructionsIgnoreSoundTimerAndFlags : Obligations.InstructionsIgnoreSoundTimerAndFlags := by
  intro i s t st redraw halted h
  have htable := tabledFault_withOutputs i s st redraw halted
  obtain ⟨f, hf, rfl⟩ | ⟨hnone, rfl⟩ := exec_cases h
  · exact ⟨_, exec_of_fault (htable.trans hf), differsInOutputs_withOutputs _ _ _ (s.raise f)⟩
  · exact ⟨_, exec_of_noFault (htable.trans hnone), completed_withOutputs i s st redraw halted⟩

end Sys2Proof.Machine
end

section
/-! Stores and loads through `I` that complete (spec 43_index_memory.md R173 to R176, 20_memory.md R60): what
a run of stored bytes reads as, the frames of a memory write and of a load of registers, and from these the
instructions and the laws that compose them. -/

namespace Sys2Proof.Machine

open Sys2Proof.Safety

/-! ## Bytes in a row (20_memory.md R57) -/

theorem mem_addresses {a first count : Nat} :
    a ∈ addresses first count ↔ first ≤ a ∧ a < first + count := by
  simp [addresses]

theorem Memory.peek_pokeBytes_inside (m : Memory) (a : Nat) {bs : List Byte} {k : Nat}
    (hk : k < bs.length) (hmem : a + k < 4096) : (m.pokeBytes a bs).peek (a + k) = bs.getD k 0 := by
  rw [Memory.peek_pokeBytes, if_pos ⟨Nat.le_add_right a k, Nat.add_lt_add_left hk a, hmem⟩,
    Nat.add_sub_cancel_left]

theorem Memory.peek_pokeBytes_outside (m : Memory) {a c : Nat} {bs : List Byte}
    (hc : c ∉ addresses a bs.length) : (m.pokeBytes a bs).peek c = m.peek c := by
  rw [mem_addresses] at hc
  rw [Memory.peek_pokeBytes, if_neg (by omega)]

/-! ## Frames -/

/-- A frame is not left by a write of memory that stays inside its addresses. -/
theorem unchanged_setMem {w : Writes} {s t : State} {m : Memory}
    (hm : ∀ a, a ∉ w.mem → m.peek a = t.mem.peek a) (h : Unchanged w s t) :
    Unchanged w s { t with mem := m } := by
  obtain ⟨hregs, hmem, hrest⟩ := h
  exact ⟨hregs, fun a ha => (hm a ha).trans (hmem a ha), hrest⟩

/-- A frame is not left by a write of the registers that stays inside its list. -/
theorem unchanged_setV {w : Writes} {s t : State} {v : Vector Byte 16}
    (hv : ∀ j, j ∉ w.regs → State.reg { t with v := v } j = t.reg j) (h : Unchanged w s t) :
    Unchanged w s { t with v := v } := by
  obtain ⟨hregs, hrest⟩ := h
  exact ⟨fun j hj => (hv j hj).trans (hregs j hj), hrest⟩

theorem unchanged_pokeBytes (s : State) (a : Nat) (bs : List Byte) :
    Unchanged { mem := addresses a bs.length } s { s with mem := s.mem.pokeBytes a bs } :=
  unchanged_setMem (fun _ hc => s.mem.peek_pokeBytes_outside hc) (unchanged_refl _ s)

theorem mem_regsUpTo {x j : Nibble} : j ∈ regsUpTo x ↔ j.toNat ≤ x.toNat := by
  have hx := x.isLt
  simp only [regsUpTo, List.mem_map, List.mem_range]
  constructor
  · rintro ⟨k, hk, rfl⟩
    rw [BitVec.toNat_ofNat, Nat.mod_eq_of_lt (by omega)]
    omega
  · intro hj
    exact ⟨j.toNat, by omega, by simp⟩

theorem State.reg_loadRegs (s : State) (x j : Nibble) : (s.loadRegs x).reg j =
    if j.toNat ≤ x.toNat then s.mem.peek (s.index.toNat + j.toNat) else s.reg j := by
  obtain ⟨v, hloaded, hreg⟩ := s.loadRegs_eq x
  rw [hloaded, hreg]

theorem unchanged_loadRegs (s : State) (x : Nibble) :
    Unchanged { regs := regsUpTo x } s (s.loadRegs x) := by
  obtain ⟨v, hloaded, hreg⟩ := s.loadRegs_eq x
  rw [hloaded]
  refine unchanged_setV (fun j hj => ?_) (unchanged_refl _ s)
  rw [hreg, if_neg (fun hle => hj (mem_regsUpTo.mpr hle))]

/-- An address of a run through `V[x]` is that of some register. -/
theorem exists_register_of_mem_addresses {a first : Nat} {x : Nibble}
    (ha : a ∈ addresses first (x.toNat + 1)) : ∃ j : Nibble, j.toNat ≤ x.toNat ∧ a = first + j.toNat := by
  have hx := x.isLt
  rw [mem_addresses] at ha
  have hj : (BitVec.ofNat 4 (a - first)).toNat = a - first := by
    rw [BitVec.toNat_ofNat, Nat.mod_eq_of_lt (by omega)]
  exact ⟨BitVec.ofNat 4 (a - first), by omega, by omega⟩

/-! ## When the table of faults gives none -/

theorem indexFault_eq_none {s : State} {count : Nat} (kind : AccessKind)
    (h : count = 0 ∨ s.index.toNat + count ≤ 4096) : indexFault s count kind = none :=
  if_neg (by omega)

/-! ## The obligations -/

theorem bcdDigit_toNat {n : Nat} (h : n ≤ 9) : (BitVec.ofNat 8 n).toNat = n := by
  rw [BitVec.toNat_ofNat, Nat.mod_eq_of_lt (by omega)]

/-- Settles O38: the three bytes stored are the quotient by 100, the tens and the ones of a number below
256. -/
theorem storeDigitsWritesDecimal : Obligations.StoreDigitsWritesDecimal := by
  intro x s h
  have hreg := (s.reg x).isLt
  have hbyte : ∀ k < 3, (completed (.opFX33 x) s).mem.peek (s.index.toNat + k) =
      (bcdDigits (s.reg x)).getD k 0 :=
    fun k hk => s.mem.peek_pokeBytes_inside _ hk (by omega)
  have hhundreds : ((completed (.opFX33 x) s).mem.peek s.index.toNat).toNat = (s.reg x).toNat / 100 :=
    (congrArg BitVec.toNat (hbyte 0 (by decide))).trans (bcdDigit_toNat (by omega))
  have htens : ((completed (.opFX33 x) s).mem.peek (s.index.toNat + 1)).toNat =
      (s.reg x).toNat / 10 % 10 :=
    (congrArg BitVec.toNat (hbyte 1 (by decide))).trans (bcdDigit_toNat (by omega))
  have hones : ((completed (.opFX33 x) s).mem.peek (s.index.toNat + 2)).toNat = (s.reg x).toNat % 10 :=
    (congrArg BitVec.toNat (hbyte 2 (by decide))).trans (bcdDigit_toNat (by omega))
  refine ⟨_, exec_of_noFault (indexFault_eq_none _ (.inr (by omega))), ?_, ?_, ?_, ?_, rfl,
    (unchanged_setPc_iff _).mpr (unchanged_pokeBytes s _ _)⟩
  all_goals omega

/-- Settles O39: byte `j` of the run stored is `V[j]`. -/
theorem storeRegistersWritesV0ToVx : Obligations.StoreRegistersWritesV0ToVx := by
  intro x s h
  refine ⟨_, exec_of_noFault (indexFault_eq_none _ (.inr (by omega))), fun j hj => ?stored, rfl, ?frame⟩
  case stored =>
    have hlength : j.toNat < (s.regsTo x).length := by
      rw [State.regsTo_length]
      omega
    calc (s.mem.pokeBytes s.index.toNat (s.regsTo x)).peek (s.index.toNat + j.toNat)
        = (s.regsTo x).getD j.toNat 0 := s.mem.peek_pokeBytes_inside _ hlength (by omega)
      _ = s.reg (BitVec.ofNat 4 j.toNat) := s.regsTo_get x hj
      _ = s.reg j := by rw [BitVec.ofNat_toNat, BitVec.setWidth_eq]
  case frame =>
    rw [← s.regsTo_length x]
    exact (unchanged_setPc_iff _).mpr (unchanged_pokeBytes s _ _)

/-- Settles O40: the load writes `V[0]` to `V[X]` and no other register. -/
theorem loadRegistersReadsV0ToVx : Obligations.LoadRegistersReadsV0ToVx := by
  intro x s h
  refine ⟨_, exec_of_noFault (indexFault_eq_none _ (.inr (by omega))), fun j hj => ?loaded, ?pc,
    (unchanged_setPc_iff _).mpr (unchanged_loadRegs s x)⟩
  case loaded => rw [completed, State.reg_advance, State.reg_loadRegs, if_pos hj]
  case pc =>
    obtain ⟨v, hloaded, -⟩ := s.loadRegs_eq x
    rw [completed, hloaded]
    rfl

/-- Settles O41: `I` stays, so the second instruction goes to the same addresses, and what the first left
there or in the registers is what it writes. -/
theorem storeAndLoadRegistersAreInverse : Obligations.StoreAndLoadRegistersAreInverse := by
  intro x s h
  constructor
  · obtain ⟨t, ht, hstored, -, hregs, -, hindex, -⟩ := storeRegistersWritesV0ToVx x s h
    have hindex : t.index = s.index := hindex rfl
    obtain ⟨u, hu, hloaded, -, hkept, -⟩ := loadRegistersReadsV0ToVx x t (by rwa [hindex])
    refine ⟨t, u, ht, hu, State.v_eq_of_reg fun j => ?_⟩
    by_cases hj : j.toNat ≤ x.toNat
    · rw [hloaded j hj, hindex, hstored j hj]
    · rw [hkept j (fun hmem => hj (mem_regsUpTo.mp hmem)), hregs j (List.not_mem_nil)]
  · obtain ⟨t, ht, hloaded, -, -, hmem, hindex, -⟩ := loadRegistersReadsV0ToVx x s h
    have hindex : t.index = s.index := hindex rfl
    obtain ⟨u, hu, hstored, -, -, hkept, -⟩ := storeRegistersWritesV0ToVx x t (by rwa [hindex])
    rw [hindex] at hstored hkept
    refine ⟨t, u, ht, hu, fun a => ?_⟩
    by_cases ha : a ∈ addresses s.index.toNat (x.toNat + 1)
    · obtain ⟨j, hj, rfl⟩ := exists_register_of_mem_addresses ha
      rw [hstored j hj, hloaded j hj]
    · rw [hkept a ha, hmem a (List.not_mem_nil)]

/-- Settles O42: the next fetch is at `I`, where the store put `V[0]` and `V[1]`. -/
theorem storeIsSeenByNextFetch : Obligations.StoreIsSeenByNextFetch := by
  intro x s hx hindex hpc hmem
  obtain ⟨t, ht, hstored, htpc, -⟩ := storeRegistersWritesV0ToVx x s hmem
  have hnext : t.pc = s.index := htpc.trans hindex.symm
  have hindexNat : s.index.toNat = s.pc.toNat + 2 := by
    rw [hindex, BitVec.toNat_add]
    exact Nat.mod_eq_of_lt (by simp; omega)
  have hhigh : t.mem.peek s.index.toNat = s.reg 0 := hstored 0 (Nat.zero_le _)
  have hlow : t.mem.peek (s.index.toNat + 1) = s.reg 1 := hstored 1 hx
  refine ⟨t, ht, ?_⟩
  rw [State.fetch_ok (by rw [hnext]; omega), hnext, hhigh, hlow]

end Sys2Proof.Machine
end

section
/-! The rest of the single instructions: random, index, call and return, key skips and the key wait (spec
42_alu.md R151, 43_index_memory.md R171, R172, 41_flow.md R120, R122, R128, 45_keypad_timer.md R225 to R227),
each from the state it completes with. -/

namespace Sys2Proof.Machine

open Sys2Proof.Safety

/-! ## Frames -/

/-- A frame that names the random source is not left by the consumption of a byte. -/
theorem unchanged_consumeRnd {w : Writes} {s t : State} (hw : w.rnd = true) (h : Unchanged w s t) :
    Unchanged w s t.consumeRnd := by
  obtain ⟨hregs, hmem, hindex, hstack, hdt, hst, hhalted, hredraw, hfault, hfb, hkeys, hlatch, -,
    hrest⟩ := h
  exact ⟨hregs, hmem, hindex, hstack, hdt, hst, hhalted, hredraw, hfault, hfb, hkeys, hlatch,
    fun hnot => absurd hw (Bool.eq_false_iff.mp hnot), hrest⟩

/-- A frame that names the stack is not left by a write of it and of SP. -/
theorem unchanged_setStack {w : Writes} {s t : State} (stack : Vector Word 16) (sp : Fin 17)
    (hw : w.stack = true) (h : Unchanged w s t) :
    Unchanged w s { t with stack := stack, sp := sp } := by
  obtain ⟨hregs, hmem, hindex, -, hrest⟩ := h
  exact ⟨hregs, hmem, hindex, fun hnot => absurd hw (Bool.eq_false_iff.mp hnot), hrest⟩

/-- A frame that names the wait flag is not left by a write of it. -/
theorem unchanged_setHaltedForKey {w : Writes} {s t : State} (flag : Bool) (hw : w.halted = true)
    (h : Unchanged w s t) : Unchanged w s { t with haltedForKey := flag } := by
  obtain ⟨hregs, hmem, hindex, hstack, hdt, hst, -, hrest⟩ := h
  exact ⟨hregs, hmem, hindex, hstack, hdt, hst, fun hnot => absurd hw (Bool.eq_false_iff.mp hnot),
    hrest⟩

/-- A frame that names the keys is not left by a write of them. -/
theorem unchanged_setKeys {w : Writes} {s t : State} (keys : Vector Bool 16) (hw : w.keys = true)
    (h : Unchanged w s t) : Unchanged w s { t with keys := keys } := by
  obtain ⟨hregs, hmem, hindex, hstack, hdt, hst, hhalted, hredraw, hfault, hfb, -, hrest⟩ := h
  exact ⟨hregs, hmem, hindex, hstack, hdt, hst, hhalted, hredraw, hfault, hfb,
    fun hnot => absurd hw (Bool.eq_false_iff.mp hnot), hrest⟩

/-- A frame that names the latch is not left by a write of it. -/
theorem unchanged_setLatch {w : Writes} {s t : State} (latch : Option Key) (hw : w.latch = true)
    (h : Unchanged w s t) : Unchanged w s { t with latch := latch } := by
  obtain ⟨hregs, hmem, hindex, hstack, hdt, hst, hhalted, hredraw, hfault, hfb, hkeys, -, hrest⟩ := h
  exact ⟨hregs, hmem, hindex, hstack, hdt, hst, hhalted, hredraw, hfault, hfb, hkeys,
    fun hnot => absurd hw (Bool.eq_false_iff.mp hnot), hrest⟩

/-! ## Random and index -/

theorem and_and_not_self (a mask : Byte) : a &&& mask &&& ~~~mask = 0 := by
  rw [BitVec.and_assoc, BitVec.and_not_self]
  exact BitVec.and_zero

/-- Settles O35: the byte is taken from the source before the masked value is written. -/
theorem randomByteIsMaskedAndConsumed : Obligations.RandomByteIsMaskedAndConsumed := by
  intro x nn s
  have hreg : (s.consumeRnd.setReg x (s.rnd &&& nn)).advance.reg x = Config.rnd s.rndCount &&& nn :=
    (setReg_advance_spec s.consumeRnd x _).1
  refine ⟨_, rfl, hreg, ?masked, rfl, rfl, (unchanged_setPc_iff _).mpr
    (unchanged_setReg _ (List.mem_singleton_self x) (unchanged_consumeRnd rfl (unchanged_refl _ s)))⟩
  case masked => rw [hreg, and_and_not_self]

theorem glyphAddress_toNat (b : Byte) : (glyphAddress b).toNat = 0x050 + 5 * b.toNat := by
  have hb := b.isLt
  have hlt : Config.fontBase + Config.glyphStride * b.toNat < 2 ^ 16 := by
    simp only [Config.fontBase, Config.glyphStride]
    omega
  exact (BitVec.toNat_ofNat _ 16).trans (Nat.mod_eq_of_lt hlt)

/-- Settles O37: both write `I` alone, a 16-bit sum and the address of a glyph, which 16 bits hold. -/
theorem indexAddAndGlyphAddress : Obligations.IndexAddAndGlyphAddress := by
  intro x s
  refine ⟨⟨_, rfl, setIndex_advance_spec s ?sum⟩,
    ⟨_, rfl, setIndex_advance_spec s (glyphAddress_toNat (s.reg x))⟩⟩
  case sum => rw [BitVec.toNat_add, regAsWord_toNat]

/-! ## Call and return -/

/-- Settles O26: the push writes one entry, that at SP. -/
theorem callPushesReturnAddress : Obligations.CallPushesReturnAddress := by
  intro nnn s hroom
  refine ⟨_, exec_of_noFault (if_neg hroom.ne), Fin.val_add_one_of_lt hroom, fun j hj => ?entry,
    immAddress_toNat nnn, (unchanged_setPc_iff _).mpr (unchanged_setStack _ _ rfl (unchanged_refl _ s))⟩
  case entry => exact (Vector.getElem_setIfInBounds hj).trans (if_congr eq_comm rfl rfl)

/-- Settles O27: the pop writes SP and PC and reads the entry below SP. -/
theorem returnPopsReturnAddress : Obligations.ReturnPopsReturnAddress := by
  intro s hpos
  have hsp : (s.sp - 1).val = s.sp.val - 1 :=
    Fin.val_sub_one_of_ne_zero (Fin.pos_iff_ne_zero.mp hpos)
  refine ⟨_, exec_of_noFault (if_neg hpos.ne'), ?sp, rfl, ?entry,
    (unchanged_setPc_iff _).mpr (unchanged_setStack _ _ rfl (unchanged_refl _ s))⟩
  case sp =>
    rw [completed, State.setPc_sp, hsp]
    omega
  case entry =>
    simp only [completed, State.setPc_sp, State.setPc_pc, hsp]
    exact Vector.getElem?_eq_getElem _

/-- The stack stays through any instructions that neither call nor return. -/
theorem execAll_keepsStack {body : List Instr} {s t : State} (hbody : ∀ i ∈ body, KeepsStack i)
    (h : execAll body s = .next t) : t.stack = s.stack ∧ t.sp = s.sp := by
  induction body generalizing s with
  | nil =>
    injection h with h
    exact ⟨h ▸ rfl, h ▸ rfl⟩
  | cons i is ih =>
    obtain ⟨hi, his⟩ := List.forall_mem_cons.mp hbody
    obtain ⟨u, hu⟩ : ∃ u, exec i s = .next u := ⟨_, exec_eq i s⟩
    rw [execAll, hu] at h
    obtain ⟨hstack, hsp⟩ := ih his h
    obtain ⟨hstack', hsp'⟩ | rfl | ⟨nnn, rfl⟩ := (exec_frame hu).stack
    · exact ⟨hstack.trans hstack', hsp.trans hsp'⟩
    · exact hi.elim
    · exact hi.elim

/-- Settles O28: the body leaves the entry that the call pushed and SP above it, so the return finds it. -/
theorem callThenReturnRoundTrips : Obligations.CallThenReturnRoundTrips := by
  intro nnn body s t u hroom hcall hbody hrun
  obtain ⟨t', ht', hsp, hentry, -⟩ := callPushesReturnAddress nnn s hroom
  injection hcall.symm.trans ht' with htt
  subst htt
  obtain ⟨hstack, husp⟩ := execAll_keepsStack hbody hrun
  obtain ⟨w, hw, hwsp, -, hwentry, -⟩ := returnPopsReturnAddress u (by rw [husp]; omega)
  have hback : w.sp.val = s.sp.val := by
    rw [husp] at hwsp
    omega
  refine ⟨w, hw, ?pc, Fin.ext hback⟩
  rw [hback, hstack, Vector.getElem?_eq_getElem hroom, hentry _ hroom, if_pos rfl] at hwentry
  exact (Option.some_injective _ hwentry).symm

/-! ## Keypad -/

/-- Settles O7: the event sets one key. -/
theorem keyPressMarksKeyPressed : Obligations.KeyPressMarksKeyPressed := by
  intro s k
  refine ⟨s.keyPress k, rfl, fun j => ?level, rfl, ?frame⟩
  case level =>
    rw [State.isPressed_keyPress]
    by_cases h : j = k <;> simp [h]
  case frame => exact unchanged_setKeys _ rfl (unchanged_refl _ s)

theorem State.skipIf_pressed_pc (s : State) (b : Byte) :
    (s.skipIf (s.isPressed (b.setWidth 4) == true)).pc =
      s.pc + (if s.isPressed (BitVec.ofNat 4 b.toNat) = true then 4 else 2) := by
  rw [BitVec.ofNat_toNat, State.skipIf_pc]
  cases s.isPressed (b.setWidth 4) <;> rfl

theorem State.skipIf_released_pc (s : State) (b : Byte) :
    (s.skipIf (s.isPressed (b.setWidth 4) == false)).pc =
      s.pc + (if s.isPressed (BitVec.ofNat 4 b.toNat) = true then 2 else 4) := by
  rw [BitVec.ofNat_toNat, State.skipIf_pc]
  cases s.isPressed (b.setWidth 4) <;> rfl

/-- Settles O48: a register of at most 15 names a key, and both are the shared skip on that key's level. -/
theorem keySkipsTestTheKeyLevel : Obligations.KeySkipsTestTheKeyLevel := by
  intro x s hkey
  exact ⟨⟨_, exec_of_noFault (if_neg (by omega)), s.skipIf_pressed_pc _, unchanged_skipIf _ s _⟩,
    ⟨_, exec_of_noFault (if_neg (by omega)), s.skipIf_released_pc _, unchanged_skipIf _ s _⟩⟩

/-- Settles O49: with the latch empty the wait is one write of the flag; otherwise the key is widened into
`V[X]`, and latch, flag and PC are written. -/
theorem keyWaitTakesTheLatchedKey : Obligations.KeyWaitTakesTheLatchedKey := by
  intro x s
  refine ⟨fun hempty => ?wait, fun k hlatch => ?take⟩
  case wait =>
    refine ⟨_, exec_of_noFault rfl, ?_⟩
    rw [completed_opFX0A_of_empty hempty]
    exact ⟨rfl, rfl, unchanged_setHaltedForKey true rfl (unchanged_refl _ s)⟩
  case take =>
    have hcleared : Unchanged { regs := [x], latch := true, halted := true } s
        { s with latch := none, haltedForKey := false } :=
      unchanged_setHaltedForKey false rfl (unchanged_setLatch none rfl (unchanged_refl _ s))
    refine ⟨_, exec_of_noFault rfl, ?_⟩
    rw [completed_opFX0A_of_latched hlatch]
    refine ⟨?key, rfl, rfl, rfl, (unchanged_setPc_iff _).mpr
      (unchanged_setReg _ (List.mem_singleton_self x) hcleared)⟩
    case key =>
      rw [(setReg_advance_spec _ x _).1]
      exact BitVec.toNat_setWidth_of_le (by decide)

end Sys2Proof.Machine
end

section
/-! `DXYN` and the host's views (spec 44_display.md R195 to R197, R201): the row loop of the model draws the
sprite's bits as the statements write them, and a view is the rows one after the other. -/

namespace Sys2Proof.Machine

open Sys2Proof.Safety

/-! ## The sprite's bits (R201) -/

theorem columnsFrom_spriteColumn (b : Byte) (col : BitVec 6) :
    columnsFrom (spriteColumn b) col = (col.toNat + 64 - b.toNat % 64) % 64 := by
  rw [columnsFrom, spriteColumn, BitVec.toNat_sub, BitVec.toNat_setWidth]
  omega

/-- A row is one of those drawn exactly when it is one of the sprite's `N`: the others are below the
screen. -/
theorem row_drawn_iff (b : Byte) (n : Nibble) (row : BitVec 5) :
    (b.toNat ≤ row.toNat ∧ row.toNat < b.toNat + spriteRows b n) ↔
      (b.toNat ≤ row.toNat ∧ row.toNat - b.toNat < n.toNat) := by
  have hrow := row.isLt
  unfold spriteRows
  simp only [Config.fbHeight]
  split <;> omega

/-- The bits the model draws are the sprite's. -/
theorem spriteBits_eq_spriteBit (s : State) (x y n : Nibble) (col : BitVec 6) (row : BitVec 5) :
    spriteBits s.mem s.index.toNat (spriteColumn (s.reg x)) (s.reg y).toNat (spriteRows (s.reg y) n)
      col row = spriteBit s x y n col row := by
  simp only [spriteBits, spriteBit, rowBit, columnsFrom_spriteColumn, row_drawn_iff,
    Bool.decide_and, Bool.and_assoc]

/-- A sprite of no rows has no bits. -/
theorem spriteBits_zero (m : Memory) (base : Nat) (x0 : BitVec 6) (y0 : Nat) (col : BitVec 6)
    (row : BitVec 5) : spriteBits m base x0 y0 0 col row = false := by
  rw [spriteBits, decide_eq_false (by omega), Bool.false_and]

/-- Everything a draw does to the pixels. -/
theorem State.drawn_pixel (s : State) (x y n : Nibble) (col : BitVec 6) (row : BitVec 5) :
    (s.drawn x y n).1.pixel col row = (s.fb.pixel col row ^^ spriteBit s x y n col row) := by
  rw [← spriteBits_eq_spriteBit]
  rcases spriteRows_fit (s.reg y) n with hnone | hfit
  · rw [State.drawn, hnone, spriteBits_zero, Bool.xor_false]
    rfl
  · exact drawSprite_pixel _ _ _ _ _ _ _ hfit

/-- A draw reports a collision exactly when the sprite covers a pixel that was lit. -/
theorem State.drawn_hit (s : State) (x y n : Nibble) : (s.drawn x y n).2 = true ↔
    ∃ col row, spriteBit s x y n col row = true ∧ s.fb.pixel col row = true := by
  simp only [← spriteBits_eq_spriteBit]
  rcases spriteRows_fit (s.reg y) n with hnone | hfit
  · simp [State.drawn, hnone, spriteBits_zero, drawSprite]
  · exact drawSprite_hit _ _ _ _ _ hfit

/-! ## The completed draw -/

/-- The condition that the sprite's bytes are in memory is that under which the table gives no fault. -/
theorem tabledFault_opDXYN_eq_none {s : State} {x y n : Nibble} (h : SpriteInMemory s y n) :
    tabledFault (.opDXYN x y n) s = none :=
  indexFault_eq_none _ h

theorem completed_opDXYN_pixel (s : State) (x y n : Nibble) (col : BitVec 6) (row : BitVec 5) :
    (completed (.opDXYN x y n) s).fb.pixel col row =
      (s.fb.pixel col row ^^ spriteBit s x y n col row) :=
  s.drawn_pixel x y n col row

theorem completed_opDXYN_vf (s : State) (x y n : Nibble) :
    (completed (.opDXYN x y n) s).reg 15 = flagByte (s.drawn x y n).2 :=
  (State.reg_setReg { s with fb := (s.drawn x y n).1 } vf 15 _).trans (if_pos rfl)

/-- VF after a completed draw, in the pixels of the two framebuffers. -/
theorem completed_opDXYN_collision (s : State) (x y n : Nibble) :
    (completed (.opDXYN x y n) s).reg 15 = 1 ∧ (∃ col row, s.fb.pixel col row = true ∧
        (completed (.opDXYN x y n) s).fb.pixel col row = false) ∨
      (completed (.opDXYN x y n) s).reg 15 = 0 ∧ ∀ col row, s.fb.pixel col row = true →
        (completed (.opDXYN x y n) s).fb.pixel col row = true := by
  simp only [completed_opDXYN_vf, completed_opDXYN_pixel]
  cases hhit : (s.drawn x y n).2 with
  | true =>
    obtain ⟨col, row, hbit, hlit⟩ := (s.drawn_hit x y n).mp hhit
    exact .inl ⟨rfl, col, row, hlit, by rw [hlit, hbit]; rfl⟩
  | false =>
    refine .inr ⟨rfl, fun col row hlit => ?_⟩
    cases hbit : spriteBit s x y n col row with
    | false => rw [hlit]; rfl
    | true => exact absurd ((s.drawn_hit x y n).mpr ⟨col, row, hbit, hlit⟩) (by rw [hhit]; decide)

/-! ## The obligations on `DXYN` -/

/-- Settles O44: the row loop draws the sprite's bits and reports whether one of them meets a lit pixel. -/
theorem drawXorsSpriteAndReportsCollision : Obligations.DrawXorsSpriteAndReportsCollision := by
  intro x y n s h
  refine ⟨_, exec_of_noFault (tabledFault_opDXYN_eq_none h), completed_opDXYN_pixel s x y n,
    completed_opDXYN_collision s x y n, rfl, rfl, (unchanged_setPc_iff _).mpr ?_⟩
  exact unchanged_setNeedsRedraw true rfl (unchanged_setReg _ (List.mem_singleton_self vf)
    (unchanged_setFb _ rfl (unchanged_refl _ s)))

/-- The sprite depends on two registers, `I` and memory alone. -/
theorem spriteBit_congr {s u : State} {x y n : Nibble} (hx : u.reg x = s.reg x) (hy : u.reg y = s.reg y)
    (hindex : u.index = s.index) (hmem : ∀ a, u.mem.peek a = s.mem.peek a) (col : BitVec 6)
    (row : BitVec 5) : spriteBit u x y n col row = spriteBit s x y n col row := by
  simp only [spriteBit, hx, hy, hindex, hmem]

theorem flagByte_eq_one_iff (g : Bool) : flagByte g = 1 ↔ g = true := by
  cases g <;> decide

/-- Settles O45: the second draw XORs the same bits on again, and its collision is with the pixels lit by
the first. -/
theorem drawingTwiceRestoresFramebuffer : Obligations.DrawingTwiceRestoresFramebuffer := by
  intro x y n s t u h ht hfb hx hy hindex hmem
  have hbit := spriteBit_congr (n := n) hx hy hindex hmem
  have hu : SpriteInMemory u y n := by
    rw [SpriteInMemory, hy, hindex]
    exact h
  injection (exec_of_noFault (tabledFault_opDXYN_eq_none h)).symm.trans ht with ht
  refine ⟨_, exec_of_noFault (tabledFault_opDXYN_eq_none hu), Framebuffer.ext_pixel fun col row => ?_,
    ?_⟩
  · rw [completed_opDXYN_pixel, hfb, ← ht, completed_opDXYN_pixel, hbit, Bool.xor_assoc, Bool.xor_self,
      Bool.xor_false]
  · simp only [completed_opDXYN_vf, flagByte_eq_one_iff, State.drawn_hit, hbit, hfb]

/-! ## The host's views (R196, R197) -/

theorem Framebuffer.rowExport_length (fb : Framebuffer) (y : BitVec 5) : (fb.rowExport y).length = 8 := by
  simp [Framebuffer.rowExport]

section Blocks

variable {α : Type} {block : Nat → List α} {width : Nat} (hwidth : ∀ y, (block y).length = width)
include hwidth

theorem length_flatMap_range (n : Nat) : ((List.range n).flatMap block).length = width * n := by
  simp [List.length_flatMap, hwidth, Nat.mul_comm]

/-- An entry of blocks of one width laid one after the other. -/
theorem getElem?_flatMap_range {n y j : Nat} (hy : y < n) (hj : j < width) :
    ((List.range n).flatMap block)[width * y + j]? = (block y)[j]? := by
  induction n with
  | zero => exact absurd hy (Nat.not_lt_zero y)
  | succ n ih =>
    have hlength := length_flatMap_range hwidth n
    rw [List.range_succ, List.flatMap_append, List.flatMap_singleton]
    by_cases hlast : y = n
    · rw [List.getElem?_append_right (by rw [hlength, hlast]; omega), hlength, hlast,
        Nat.add_sub_cancel_left]
    · have hearlier : y < n := by omega
      have hinside : width * y + j < width * n :=
        calc width * y + j < width * (y + 1) := by rw [Nat.mul_succ]; omega
          _ ≤ width * n := Nat.mul_le_mul_left width hearlier
      rw [List.getElem?_append_left (by rw [hlength]; exact hinside), ih hearlier]

end Blocks

theorem Framebuffer.getElem?_frameExport (fb : Framebuffer) {y j : Nat} (hy : y < 32) (hj : j < 8) :
    fb.frameExport[8 * y + j]? = some (fb.getByte (BitVec.ofNat 6 (8 * j)) (BitVec.ofNat 5 y)) := by
  rw [Framebuffer.frameExport,
    getElem?_flatMap_range (fun y => fb.rowExport_length (BitVec.ofNat 5 y)) hy hj,
    Framebuffer.rowExport, List.getElem?_map, List.getElem?_range hj, Option.map_some]

/-- Lines joined by a separator: the first, then each other one behind the separator. -/
theorem intercalate_cons_eq_flatMap {α : Type} (sep line : List α) (lines : List (List α)) :
    sep.intercalate (line :: lines) = line ++ lines.flatMap (sep ++ ·) := by
  induction lines generalizing line with
  | nil => simp
  | cons next rest ih => simp [List.intercalate_cons_cons, ih]

/-- Settles O47: the frame is the rows' bytes in order, and the model's rule of a newline before every line
but the first is the joining by newlines. -/
theorem hostViewsShowEveryPixel : Obligations.HostViewsShowEveryPixel := by
  intro fb
  refine ⟨length_flatMap_range (fun y => fb.rowExport_length (BitVec.ofNat 5 y)) 32,
    fun y j i hy hj hi => ?pixel, ?text⟩
  case pixel =>
    refine ⟨_, fb.getElem?_frameExport hy hj, ?_⟩
    rw [fb.getByte_bit _ _ hi, BitVec.ofNat_add]
  case text =>
    have hrows : List.range 32 = 0 :: (List.range 31).map Nat.succ := List.range_succ_eq_map
    change fb.text = List.intercalate ['\n']
      ((List.range 32).map fun y => fb.textLine (BitVec.ofNat 5 y))
    rw [Framebuffer.text, Config.fbHeight, hrows, List.flatMap_cons, List.map_cons,
      intercalate_cons_eq_flatMap, List.map_map, List.flatMap_map, List.flatMap_map]
    rfl

end Sys2Proof.Machine
end

section
/-! VF after every instruction (spec 10_state.md R22): a flag instruction writes its flag last, whatever
registers it names, and another instruction changes register F only as its destination. -/

namespace Sys2Proof.Machine

open Sys2Proof.Safety

theorem flagByte_toNat_eq_ite (g : Bool) : (flagByte g).toNat = if g then 1 else 0 := by
  cases g <;> rfl

theorem setWithFlag_vf (s : State) (x : Nibble) (b : Byte) (g : Bool) :
    (s.setWithFlag x b g).advance.reg 15 = flagByte g :=
  (s.reg_setWithFlag x 15 b g).trans (if_pos rfl)

theorem setReg_vf_of_ne (s : State) {x : Nibble} (b : Byte) (hx : x ≠ 15) :
    (s.setReg x b).advance.reg 15 = s.reg 15 :=
  (s.reg_setReg x 15 b).trans (if_neg hx.symm)

theorem completed_opFX0A_vf (s : State) {x : Nibble} (hx : x ≠ 15) :
    (completed (.opFX0A x) s).reg 15 = s.reg 15 := by
  cases hlatch : s.latch with
  | none => rw [completed_opFX0A_of_empty hlatch]; rfl
  | some k =>
    rw [completed_opFX0A_of_latched hlatch]
    exact setReg_vf_of_ne { s with latch := none, haltedForKey := false } _ hx

theorem completed_opFX65_vf (s : State) {x : Nibble} (hx : x ≠ 15) :
    (completed (.opFX65 x) s).reg 15 = s.reg 15 := by
  have hbelow : ¬ (15 : Nibble).toNat ≤ x.toNat := fun hle =>
    hx (BitVec.eq_of_toNat_eq (Nat.le_antisymm (Nat.le_of_lt_succ x.isLt) hle))
  rw [completed, State.reg_advance, State.reg_loadRegs, if_neg hbelow]

/-- Settles O55: the instructions are taken by the kind of write they end in. -/
theorem flagRegisterFollowsItsTable : Obligations.FlagRegisterFollowsItsTable := by
  intro i s t h hnone
  injection (exec_of_noFault hnone).symm.trans h with ht
  subst ht
  cases i with
  | op8XY4 x y => exact (congrArg BitVec.toNat (setWithFlag_vf s x _ _)).trans (carryFlag_toNat _ _)
  | op8XY5 x y => exact (congrArg BitVec.toNat (setWithFlag_vf s x _ _)).trans (noBorrowFlag_toNat _ _)
  | op8XY7 x y => exact (congrArg BitVec.toNat (setWithFlag_vf s x _ _)).trans (noBorrowFlag_toNat _ _)
  | op8XY6 x y => exact (congrArg BitVec.toNat (setWithFlag_vf s x _ _)).trans (flagByte_toNat_eq_ite _)
  | op8XYE x y => exact (congrArg BitVec.toNat (setWithFlag_vf s x _ _)).trans (flagByte_toNat_eq_ite _)
  | opDXYN x y n => exact completed_opDXYN_collision s x y n
  | op6XNN | op7XNN | op8XY0 | op8XY1 | op8XY2 | op8XY3 | opFX07 => exact setReg_vf_of_ne s _
  | opCXNN => exact setReg_vf_of_ne s.consumeRnd _
  | opFX0A => exact completed_opFX0A_vf s
  | opFX65 => exact completed_opFX65_vf s
  | op3XNN | op4XNN | op5XY0 | op9XY0 | opEX9E | opEXA1 => exact s.reg_skipIf _ 15
  | op00E0 | op00EE | op1NNN | op2NNN | opANNN | opBNNN | opFX15 | opFX18 | opFX1E | opFX29 | opFX33
  | opFX55 => rfl

end Sys2Proof.Machine
end

section
/-! Reset, load and the order of events (spec 10_state.md R34, 70_reset_and_hazards.md R291, R294, R295,
00_scope.md R6). -/

namespace Sys2Proof.Machine

open Sys2Proof.Safety

/-! ## Reset -/

/-- Memory and the fields that RESET keeps have no reset value in the table. -/
theorem reset_hasResetValues (m : Memory) (mode : TimerMode) (count : Nat) (events : List HostEvent) :
    HasResetValues { State.reset with
      mem := m, timerMode := mode, rndCount := count, hostEvents := events } := by
  refine ⟨fun x => ?reg, rfl, rfl, fun j hj => ?entry, rfl, rfl, rfl, rfl, rfl, rfl, rfl, rfl,
    Framebuffer.pixel_blank, fun k => ?key, rfl⟩
  case reg => exact Vector.getElem_replicate x.isLt
  case entry => exact Vector.getElem_replicate hj
  case key => exact Vector.getElem_replicate k.isLt

theorem fontTable_length : fontTable.length = 80 := rfl

/-- Settles O1: memory lists nothing, and an unlisted address reads as the font or 0. -/
theorem resetStateHasTabledValues : Obligations.ResetStateHasTabledValues := by
  refine ⟨reset_hasResetValues [] .separate 0 [], fun a _ => if_congr ?_ rfl rfl⟩
  exact and_congr_right' Nat.lt_succ_iff

/-- Settles O2: RESET takes every piece of state but memory from the reset state, and copies the font's 80
bytes to `0x050`. -/
theorem resetEventRestoresTabledValues : Obligations.ResetEventRestoresTabledValues := by
  intro s
  refine ⟨s.doReset, rfl, reset_hasResetValues _ _ _ _, fun i hi => ?font, fun a ha => ?rest, rfl, rfl, rfl,
    rfl⟩
  case font =>
    have hlength : i < fontTable.length := by rwa [fontTable_length]
    rw [State.doReset_mem]
    exact s.mem.peek_pokeBytes_inside 0x050 hlength (by omega)
  case rest =>
    have hout : a ∉ addresses Config.fontBase fontTable.length := by
      rw [mem_addresses, fontTable_length, Config.fontBase]
      omega
    rw [State.doReset_mem, Memory.peek_pokeBytes_outside _ hout]

/-! ## Load -/

theorem programWellFormed_iff (bytes : List Byte) :
    programWellFormed bytes = true ↔ bytes.length ≤ 3584 :=
  decide_eq_true_iff

theorem loadEvent_tooLarge {bytes : List Byte} (s : State) (h : 3584 < bytes.length) :
    loadEvent bytes s = .refused .programTooLarge := by
  rw [loadEvent, if_pos]
  rw [programWellFormed_iff]
  omega

theorem loadEvent_wellFormed {bytes : List Byte} (s : State) (h : bytes.length ≤ 3584) :
    loadEvent bytes s = if s.stepped then .refused .loadAfterStep else .next (s.load bytes) := by
  rw [loadEvent, if_neg]
  rwa [not_not, programWellFormed_iff]

/-- Settles O3: the last byte a LOAD can write is at 4095, so all of it is in memory. -/
theorem loadCopiesProgramBytes : Obligations.LoadCopiesProgramBytes := by
  refine ⟨fun s bytes hstepped t h => ?refused, fun s bytes hlength hfresh => ?loaded⟩
  case refused =>
    obtain ⟨-, hfresh, -⟩ := loadEvent_cases h
    rw [hstepped] at hfresh
    cases hfresh
  case loaded =>
    refine ⟨s.load bytes, ?_, fun k hk => ?byte, rfl, unchanged_pokeBytes s _ bytes⟩
    · rw [handleEvent, loadEvent_wellFormed s hlength, hfresh]
      rfl
    case byte =>
      have hmem : Config.progBase + k < 4096 := by
        simp only [Config.progBase]
        omega
      rw [State.load_mem, ← List.getD_eq_getElem bytes 0 hk]
      exact s.mem.peek_pokeBytes_inside _ hk hmem

/-! ## The order of events -/

/-- Settles O9: the head of the announced events is taken, or STEP where there is none. -/
theorem stepTakesTheNextHostEvent : Obligations.StepTakesTheNextHostEvent := by
  refine ⟨fun s e es h => ?announced, fun s h => ?none⟩
  case announced => simp only [step, State.nextEvent, State.beginEvent, h, List.headD_cons, List.tail_cons]
  case none =>
    have hbegin : s.beginEvent = { s with event := none } := by
      rw [State.beginEvent, h, List.tail_nil, ← h]
    rw [step, hbegin, State.nextEvent, h, List.headD_nil]

end Sys2Proof.Machine
end

section
/-! The STEP event (spec 40_cycle.md R100 to R107, 60_exceptions.md R252, R258): nothing while a fault is
latched, else one cycle of the state that the event begins with, whose three ways are each said once. -/

namespace Sys2Proof.Machine

open Sys2Proof.Safety

/-! ## The state a cycle begins with -/

/-- The state in which a STEP runs its cycle: the event taken, no report visible, the STEP marked (logs 4, 5,
7). -/
def State.begun (s : State) : State := s.beginEvent.markStepped

@[simp] theorem State.fetch_begun (s : State) : s.begun.fetch = s.fetch := rfl

theorem tabledFault_begun (i : Instr) (s : State) : tabledFault i s.begun = tabledFault i s := by
  cases i <;> rfl

theorem step_of_running {s : State} (hnext : s.nextEvent = .step) (hrun : Running s) :
    step s = cycle s.begun := by
  have hclear : s.beginEvent.fault.code = .none := hrun
  rw [step, hnext, handleEvent, stepEvent, if_neg (not_not.mpr hclear), State.begun]

theorem step_of_faulted {s : State} (hnext : s.nextEvent = .step) (hfault : ¬ Running s) :
    step s = .next s.beginEvent := by
  have hset : s.beginEvent.fault.code ≠ .none := hfault
  rw [step, hnext, handleEvent, stepEvent, if_pos hset]

/-! ## The three ways of a cycle -/

theorem cycle_of_fetchFault {s : State} {f : FaultLatch} (hfetch : s.fetch = .error f) :
    cycle s = .next (s.raise f) := by
  rw [cycle, hfetch]

theorem cycle_of_instr {s t : State} {op : Word} {i : Instr} (hfetch : s.fetch = .ok op)
    (hdecode : decode op = .instr i) (hexec : exec i s = .next t) : cycle s = .next t.endOfStep := by
  simp only [cycle, hfetch, hdecode, execDecoded, hexec]

theorem cycle_of_unknown {s : State} {op w : Word} (hfetch : s.fetch = .ok op)
    (hdecode : decode op = .unknown w) : cycle s = .next (execUnknown w s).endOfStep := by
  simp only [cycle, hfetch, hdecode, execDecoded]

theorem cycle_stepped {s t : State} (h : cycle s = .next t) : t.stepped = s.stepped := by
  obtain ⟨f, -, rfl⟩ | ⟨op, i, u, -, -, hexec, rfl⟩ | ⟨op, w, -, -, rfl⟩ := cycle_cases h
  · rfl
  · rw [State.endOfStep_stepped, (exec_frame hexec).stepped]
  · rw [State.endOfStep_stepped]; rfl

theorem State.endOfStep_of_separate {s : State} (hmode : s.timerMode = .separate) : s.endOfStep = s := by
  rw [State.endOfStep, if_neg]
  rintro ⟨-, hcoupled⟩
  rw [hmode] at hcoupled
  cases hcoupled

/-! ## Frames -/

/-- A frame that names the report and the host's fields is not left by writes of them. -/
theorem unchanged_setEventFields {w : Writes} {s t : State} (event : Option UnknownOpcode)
    (stepped : Bool) (hostEvents : List HostEvent) (hevent : w.event = true) (hhost : w.host = true)
    (h : Unchanged w s t) :
    Unchanged w s { t with event := event, stepped := stepped, hostEvents := hostEvents } := by
  obtain ⟨hregs, hmem, hindex, hstack, hdt, hst, hhalted, hredraw, hfault, hfb, hkeys, hlatch, hrnd, -, -,
    hmode⟩ := h
  exact ⟨hregs, hmem, hindex, hstack, hdt, hst, hhalted, hredraw, hfault, hfb, hkeys, hlatch, hrnd,
    fun hnot => absurd hevent (Bool.eq_false_iff.mp hnot),
    fun hnot => absurd hhost (Bool.eq_false_iff.mp hnot), hmode⟩

/-- A frame that names the fault latch is not left by a fault. -/
theorem unchanged_raise {w : Writes} {s t : State} (f : FaultLatch) (hw : w.fault = true)
    (h : Unchanged w s t) : Unchanged w s (t.raise f) := by
  obtain ⟨hregs, hmem, hindex, hstack, hdt, hst, hhalted, hredraw, -, hrest⟩ := h
  exact ⟨hregs, hmem, hindex, hstack, hdt, hst, hhalted, hredraw,
    fun hnot => absurd hw (Bool.eq_false_iff.mp hnot), hrest⟩

/-- A frame that names both timers is not left by the end of a STEP. -/
theorem unchanged_endOfStep {w : Writes} {s t : State} (hdt : w.dt = true) (hst : w.st = true)
    (h : Unchanged w s t) : Unchanged w s t.endOfStep := by
  obtain ⟨-, -, hcounted⟩ | ⟨-, hsame⟩ := t.endOfStep_cases
  · rw [hcounted]; exact unchanged_timerUpdate hdt hst h
  · rwa [hsame]

/-! ## The obligations -/

/-- Settles O4: the length is checked first, then the mark, which every cycle leaves set. -/
theorem illegalLoadIsRefused : Obligations.IllegalLoadIsRefused := by
  refine ⟨fun s _ h => loadEvent_tooLarge s h, fun s bytes hlength hstepped => ?late,
    fun s t hrun h => ?marked⟩
  case late =>
    rw [handleEvent, loadEvent_wellFormed s hlength, hstepped]
    rfl
  case marked =>
    obtain ⟨hfault, -⟩ | ⟨-, hcycle⟩ := stepEvent_cases h
    · exact absurd hrun hfault
    · exact cycle_stepped hcycle

/-- Settles O16: the bytes at PC are what is fetched, and every instruction answers a next state. -/
theorem stepRunsTheDecodedInstruction : Obligations.StepRunsTheDecodedInstruction := by
  intro s i hnext hrun hpc hdecode
  obtain ⟨t, ht⟩ : ∃ t, exec i s.begun = .next t := ⟨_, exec_eq i s.begun⟩
  refine ⟨t, ht, ?_⟩
  rw [step_of_running hnext hrun]
  exact cycle_of_instr (State.fetch_ok hpc) hdecode ht

/-- Settles O17: the report and PC + 2 are written in a core that is still running, then the STEP ends. -/
theorem unknownWordAdvancesAndReports : Obligations.UnknownWordAdvancesAndReports := by
  intro s op hnext hrun hpc hop hdecode
  have hfetch : s.begun.fetch = .ok op := by rw [State.fetch_begun, State.fetch_ok hpc, hop]
  have hrunUnknown : Running (execUnknown op s.begun) := hrun
  refine ⟨(execUnknown op s.begun).endOfStep, ?_, State.endOfStep_pc _, State.endOfStep_event _,
    State.endOfStep_stepped _, State.endOfStep_hostEvents _, fun hmode => ?separate,
    fun hmode => ?coupled, ?frame⟩
  · rw [step_of_running hnext hrun, cycle_of_unknown hfetch hdecode]
  case separate =>
    rw [State.endOfStep_of_separate (s := execUnknown op s.begun) hmode]
    exact ⟨rfl, rfl⟩
  case coupled =>
    exact ⟨State.endOfStep_dt_of_coupled hrunUnknown hmode, State.endOfStep_st_of_coupled hrunUnknown hmode⟩
  case frame =>
    refine unchanged_endOfStep rfl rfl ((unchanged_setPc_iff _).mpr ?_)
    exact unchanged_setEventFields (t := s) (some ⟨op, s.pc⟩) true s.hostEvents.tail rfl rfl
      (unchanged_refl _ s)

/-- Settles O18: the step is the begin of the event alone. -/
theorem faultedCoreStepDoesNothing : Obligations.FaultedCoreStepDoesNothing :=
  fun s hnext hfault => ⟨s.beginEvent, step_of_faulted hnext hfault, rfl, rfl, rfl, rfl,
    unchanged_setEventFields none s.stepped s.hostEvents.tail rfl rfl (unchanged_refl _ s)⟩

/-- Settles O19: the fetch faults, and nothing is decoded. -/
theorem fetchFaultIsLatched : Obligations.FetchFaultIsLatched := by
  intro s hnext hrun hpc
  refine ⟨s.begun.raise (memoryFault (max s.pc.toNat 4096) .fetch), ?_, rfl, rfl, ?info, rfl,
    unchanged_raise _ rfl
      (unchanged_setEventFields (t := s) none true s.hostEvents.tail rfl rfl (unchanged_refl _ s))⟩
  · rw [step_of_running hnext hrun]
    exact cycle_of_fetchFault (State.fetch_error hpc)
  case info =>
    have := s.pc.isLt
    exact memoryFault_info_toNat .fetch (by omega)

/-- Settles O20: the instruction leaves the timers, the timer mode and the fault latch, so the end of the STEP
counts the old timers down. -/
theorem coupledStepCountsTimersDown : Obligations.CoupledStepCountsTimersDown := by
  intro s i hnext hrun hmode hpc hdecode hnone hother
  obtain ⟨t, ht, hdt, hst, htmode⟩ := exec_keepsTimers (fun x => (hother x).1) (fun x => (hother x).2)
    s.begun
  have hlatch : t.fault = s.fault := by
    rw [(exec_frame ht).fault, tabledFault_begun, hnone]
    rfl
  have htrun : Running t := by rwa [Running, hlatch]
  refine ⟨t.endOfStep, ?_, ?dt, ?st⟩
  · rw [step_of_running hnext hrun]
    exact cycle_of_instr (State.fetch_ok hpc) hdecode ht
  case dt => rw [State.endOfStep_dt_of_coupled htrun (htmode.trans hmode), hdt]; rfl
  case st => rw [State.endOfStep_st_of_coupled htrun (htmode.trans hmode), hst]; rfl

/-- What a cycle outside COUPLED mode can do to the timers. -/
theorem cycle_timers_of_separate {s t : State} (hmode : s.timerMode = .separate)
    (h : cycle s = .next t) :
    (t.dt = s.dt ∨ ∃ x, s.fetch = .ok (encode (.opFX15 x)) ∧ t.dt = s.reg x) ∧
      (t.st = s.st ∨ ∃ x, s.fetch = .ok (encode (.opFX18 x)) ∧ t.st = s.reg x) := by
  obtain ⟨f, -, rfl⟩ | ⟨op, i, u, hfetch, hdecode, hexec, rfl⟩ | ⟨op, w, -, -, rfl⟩ := cycle_cases h
  · exact ⟨.inl rfl, .inl rfl⟩
  · have hend : u.endOfStep = u :=
      State.endOfStep_of_separate ((exec_frame hexec).timerMode.trans hmode)
    rw [hend, hfetch, ← encode_of_decode hdecode]
    obtain ⟨hdt, hst, -⟩ | ⟨x, rfl, hst⟩ | ⟨x, rfl, hdt⟩ := exec_timers_cases hexec
    · exact ⟨.inl hdt, .inl hst⟩
    · injection hexec with hu
      exact ⟨.inr ⟨x, rfl, hu ▸ rfl⟩, .inl hst⟩
    · injection hexec with hu
      exact ⟨.inl hdt, .inr ⟨x, rfl, hu ▸ rfl⟩⟩
  · rw [State.endOfStep_of_separate (s := execUnknown w s) hmode]
    exact ⟨.inl rfl, .inl rfl⟩

/-- Settles O21: a faulted core takes the event alone, and a cycle fetches what the state before it does. -/
theorem separateStepLeavesTimers : Obligations.SeparateStepLeavesTimers := by
  intro s t hnext hmode h
  by_cases hrun : Running s
  · rw [step_of_running hnext hrun] at h
    exact cycle_timers_of_separate (s := s.begun) hmode h
  · injection (step_of_faulted hnext hrun).symm.trans h with h
    exact ⟨.inl (h ▸ rfl), .inl (h ▸ rfl)⟩

end Sys2Proof.Machine
end

section
/-! The four invariants (spec 10_state.md R23, R25, R27, R30, 60_exceptions.md R251, R253). What one step can
do to the fields they speak of is said once, in six cases; each invariant is then a short argument in each. -/

namespace Sys2Proof.Machine

open Sys2Proof.Safety

/-! ## What a step can do -/

/-- `t` has the fields of `s` that the invariants speak of. -/
structure KeepsCore (s t : State) : Prop where
  pc : t.pc = s.pc
  stack : t.stack = s.stack
  mem : t.mem = s.mem
  fault : t.fault = s.fault
  haltedForKey : t.haltedForKey = s.haltedForKey
  stepped : t.stepped = s.stepped
  event : t.event = s.event

theorem endOfStep_keepsCore (s : State) : KeepsCore s s.endOfStep :=
  ⟨s.endOfStep_pc, s.endOfStep_stack, s.endOfStep_mem, s.endOfStep_fault, s.endOfStep_haltedForKey,
    s.endOfStep_stepped, s.endOfStep_event⟩

/-- What one step did, by the event and, for a STEP of a running core, by the way its cycle went. -/
inductive StepCase (s t : State) : Prop
  /-- TICK, a key event, REDRAW_ACK, or a STEP of a faulted core. -/
  | kept (h : KeepsCore s.beginEvent t)
  | reset (h : t = s.beginEvent.doReset)
  | load (bytes : List Byte) (hfresh : s.stepped = false) (h : t = s.beginEvent.load bytes)
  | fetchFault (hrun : Running s) (hpc : 4095 ≤ s.pc.toNat)
      (h : t = s.begun.raise (memoryFault (max s.pc.toNat 4096) .fetch))
  | instr (i : Instr) (u : State) (hrun : Running s) (hpc : s.pc.toNat ≤ 4094)
      (hdecode : decode (wordOfBytes (s.mem.peek s.pc.toNat) (s.mem.peek (s.pc.toNat + 1))) = .instr i)
      (hexec : exec i s.begun = .next u) (h : KeepsCore u t)
  | unknown (op w : Word) (hrun : Running s) (hpc : s.pc.toNat ≤ 4094)
      (hop : op = wordOfBytes (s.mem.peek s.pc.toNat) (s.mem.peek (s.pc.toNat + 1)))
      (hdecode : decode op = .unknown w) (h : KeepsCore (execUnknown w s.begun) t)

theorem cycle_stepCase {s t : State} (hrun : Running s) (h : cycle s.begun = .next t) : StepCase s t := by
  by_cases hpc : s.pc.toNat ≤ 4094
  · obtain ⟨f, hfetch, -⟩ | ⟨op, i, u, hfetch, hdecode, hexec, rfl⟩ | ⟨op, w, hfetch, hdecode, rfl⟩ :=
      cycle_cases h
    · rw [State.fetch_begun, State.fetch_ok hpc] at hfetch
      cases hfetch
    · obtain ⟨-, rfl⟩ := State.fetch_ok_inv hfetch
      exact .instr i u hrun hpc hdecode hexec (endOfStep_keepsCore u)
    · exact .unknown op w hrun hpc (State.fetch_ok_inv hfetch).2 hdecode (endOfStep_keepsCore _)
  · have hpc : 4095 ≤ s.pc.toNat := by omega
    injection (cycle_of_fetchFault (s := s.begun) (State.fetch_error hpc)).symm.trans h with h
    exact .fetchFault hrun hpc h.symm

theorem step_cases {s t : State} (h : step s = .next t) : StepCase s t := by
  rw [step] at h
  cases hnext : s.nextEvent with
  | reset =>
    rw [hnext] at h
    injection h with h
    exact .reset h.symm
  | load bytes =>
    rw [hnext] at h
    obtain ⟨-, hfresh, ht⟩ := loadEvent_cases h
    exact .load bytes hfresh ht
  | step =>
    rw [hnext] at h
    obtain ⟨-, rfl⟩ | ⟨hrun, hcycle⟩ := stepEvent_cases h
    · exact .kept ⟨rfl, rfl, rfl, rfl, rfl, rfl, rfl⟩
    · exact cycle_stepCase hrun hcycle
  | tick | keyPress | keyRelease | redrawAck =>
    rw [hnext] at h
    injection h with h
    subst h
    exact .kept ⟨rfl, rfl, rfl, rfl, rfl, rfl, rfl⟩

/-! ## Memory -/

theorem exec_keepsMemoryCanonical {i : Instr} {s t : State} (hwf : MemoryCanonical s)
    (h : exec i s = .next t) : MemoryCanonical t := by
  unfold MemoryCanonical at hwf ⊢
  obtain ⟨f, -, rfl⟩ | ⟨hnone, rfl⟩ := exec_cases h
  · exact hwf
  · obtain hsame | ⟨x, rfl | rfl⟩ := (completed_frame hnone).mem
    · rwa [hsame]
    · exact Memory.wf_pokeBytes _ _ hwf
    · exact Memory.wf_pokeBytes _ _ hwf

/-- Settles O57: memory is written by runs of stores alone, and these keep the canonical form. -/
theorem stepKeepsMemoryCanonical : Obligations.StepKeepsMemoryCanonical := by
  intro s t hwf hstep
  cases step_cases hstep with
  | kept h => unfold MemoryCanonical; rwa [h.mem]
  | reset h =>
    rw [h, MemoryCanonical, State.doReset_mem]
    exact Memory.wf_pokeBytes _ _ hwf
  | load bytes _ h =>
    rw [h, MemoryCanonical, State.load_mem]
    exact Memory.wf_pokeBytes _ _ hwf
  | fetchFault _ _ h => rw [h]; exact hwf
  | instr i u _ _ _ hexec h =>
    have hu : MemoryCanonical u := exec_keepsMemoryCanonical (s := s.begun) hwf hexec
    unfold MemoryCanonical
    rwa [h.mem]
  | unknown op w _ _ _ _ h => unfold MemoryCanonical; rw [h.mem]; exact hwf

/-! ## PC and the stack -/

theorem pcAndStackBounded_of_keepsCore {s t : State} (hs : PcAndStackBounded s) (h : KeepsCore s t) :
    PcAndStackBounded t := by
  obtain ⟨hpc, hstack⟩ := hs
  refine ⟨by rwa [h.pc], fun j hj => ?_⟩
  simp only [h.stack]
  exact hstack j hj

/-- PC after the instruction at `pc` and up to one skipped: no wrap from 4094 or below. -/
theorem pc_add_toNat_le {pc : Word} (hpc : pc.toNat ≤ 4094) {k : Word} (hk : k.toNat ≤ 4) :
    (pc + k).toNat ≤ 4094 + k.toNat := by
  rw [BitVec.toNat_add]
  omega

section Completed

variable {s : State} (hpc : s.pc.toNat ≤ 4094) (hstack : ∀ j (h : j < 16), s.stack[j].toNat ≤ 4096)
include hpc hstack

theorem advance_pcAndStackBounded : PcAndStackBounded s.advance := by
  have hnext := pc_add_toNat_le (k := 2) hpc (by decide)
  exact ⟨le_trans hnext (by decide), hstack⟩

theorem skipIf_pcAndStackBounded (c : Bool) : PcAndStackBounded (s.skipIf c) := by
  have hskip := pc_add_toNat_le (k := 4) hpc (by decide)
  cases c with
  | false => exact advance_pcAndStackBounded hpc hstack
  | true => exact ⟨le_trans hskip (by decide), hstack⟩

theorem completed_op2NNN_pcAndStackBounded (nnn : Imm12) :
    PcAndStackBounded (completed (.op2NNN nnn) s) := by
  have hreturn := pc_add_toNat_le (k := 2) hpc (by decide)
  have htarget := nnn.isLt
  refine ⟨(immAddress_toNat nnn).trans_le (by omega), fun j hj => ?_⟩
  simp only [completed, State.setPc_stack, Vector.getElem_setIfInBounds hj]
  split
  · exact le_trans hreturn (by decide)
  · exact hstack j hj

/-- An instruction goes to the next one, past it, to an immediate, to an immediate plus a byte, or to a stack
entry; of these only the sum can pass 4098. -/
theorem completed_pcAndStackBounded (i : Instr) : PcAndStackBounded (completed i s) := by
  cases i with
  | op00EE => exact ⟨le_trans (hstack _ s.sp_sub_one_lt) (by decide), hstack⟩
  | op2NNN nnn => exact completed_op2NNN_pcAndStackBounded hpc hstack nnn
  | op1NNN nnn =>
    have htarget := nnn.isLt
    exact ⟨(immAddress_toNat nnn).trans_le (by omega), hstack⟩
  | opBNNN nnn =>
    have htarget := nnn.isLt
    have hoffset := (s.reg 0).isLt
    exact ⟨(immAddress_add_regAsWord_toNat nnn (s.reg 0)).trans_le (by omega), hstack⟩
  | opFX0A x =>
    cases hlatch : s.latch with
    | none =>
      rw [completed_opFX0A_of_empty hlatch]
      exact ⟨le_trans hpc (by decide), hstack⟩
    | some k =>
      rw [completed_opFX0A_of_latched hlatch]
      exact advance_pcAndStackBounded hpc hstack
  | opFX65 x =>
    obtain ⟨v, hloaded, -⟩ := s.loadRegs_eq x
    rw [completed, hloaded]
    exact advance_pcAndStackBounded hpc hstack
  | op3XNN | op4XNN | op5XY0 | op9XY0 | opEX9E | opEXA1 => exact skipIf_pcAndStackBounded hpc hstack _
  | op00E0 | op6XNN | op7XNN | op8XY0 | op8XY1 | op8XY2 | op8XY3 | op8XY4 | op8XY5 | op8XY6 | op8XY7
  | op8XYE | opANNN | opCXNN | opDXYN | opFX07 | opFX15 | opFX18 | opFX1E | opFX29 | opFX33 | opFX55 =>
    exact advance_pcAndStackBounded hpc hstack

end Completed

theorem reset_pcAndStackBounded : PcAndStackBounded State.reset := by
  refine ⟨by decide, fun j hj => ?_⟩
  have hentry : State.reset.stack[j] = 0 := Vector.getElem_replicate hj
  rw [hentry]
  decide

/-- Settles O58: an instruction is fetched at 4094 or below, so that nothing it adds to PC wraps. -/
theorem stepKeepsPcAndStackBounded : Obligations.StepKeepsPcAndStackBounded := by
  intro s t hs hstep
  have ⟨_, hstack⟩ := hs
  cases step_cases hstep with
  | kept h => exact pcAndStackBounded_of_keepsCore (s := s.beginEvent) hs h
  | reset h =>
    simp only [h, PcAndStackBounded, State.doReset_pc, State.doReset_stack]
    exact reset_pcAndStackBounded
  | load bytes _ h => rw [h]; exact hs
  | fetchFault _ _ h => rw [h]; exact hs
  | instr i u _ hpc _ hexec h =>
    refine pcAndStackBounded_of_keepsCore (s := u) ?_ h
    obtain ⟨f, -, rfl⟩ | ⟨-, rfl⟩ := exec_cases hexec
    · exact hs
    · exact completed_pcAndStackBounded (s := s.begun) hpc hstack i
  | unknown op w _ hpc _ _ h =>
    exact pcAndStackBounded_of_keepsCore
      (advance_pcAndStackBounded (s := s.begun.report ⟨w, s.pc⟩) hpc hstack) h

/-! ## The fault latch -/

/-- The report of an earlier event may go. -/
theorem latchLegal_of_event_none {s t : State} (hs : LatchLegal s) (hfault : t.fault = s.fault)
    (hevent : t.event = none) : LatchLegal t := by
  unfold LatchLegal at hs ⊢
  rw [hfault, hevent]
  revert hs
  cases s.fault.code <;> simp +contextual

/-- Without a fault the latch is clear, whatever is reported. -/
theorem latchLegal_of_running {s t : State} (hs : LatchLegal s) (hrun : Running s)
    (hfault : t.fault = s.fault) : LatchLegal t := by
  unfold LatchLegal at hs ⊢
  rw [hfault]
  rw [Running] at hrun
  simp only [hrun] at hs ⊢
  exact hs

theorem latchLegal_memoryFault {s : State} {a : Nat} {kind : AccessKind} (hevent : s.event = none)
    (hkind : kind ≠ .none) (hlow : 4096 ≤ a) (hhigh : a < 65536) :
    LatchLegal (s.raise (memoryFault a kind)) := by
  have hinfo := memoryFault_info_toNat kind (show a < 2 ^ 17 by omega)
  exact ⟨hkind, hlow.trans_eq hinfo.symm, hinfo.trans_lt hhigh, hevent⟩

theorem latchLegal_indexFault {s : State} {f : FaultLatch} {count : Nat} {kind : AccessKind}
    (hevent : s.event = none) (hkind : kind ≠ .none) (h : indexFault s count kind = some f) :
    LatchLegal (s.raise f) := by
  have hindex := s.index.isLt
  unfold indexFault at h
  split at h
  · injection h with h
    rw [← h]
    exact latchLegal_memoryFault hevent hkind (le_max_right _ _) (by omega)
  · cases h

theorem latchLegal_invalidKey {s : State} {b : Byte} (hevent : s.event = none) (hkey : 15 < b.toNat) :
    LatchLegal (s.raise (invalidKey b)) := by
  have hinfo : (invalidKey b).info.toNat = b.toNat := BitVec.toNat_setWidth_of_le (by decide)
  exact ⟨rfl, hkey.trans_eq hinfo.symm, hinfo.trans_le (Nat.le_of_lt_succ b.isLt), hevent⟩

/-- Every fault the table gives is one of its rows. -/
theorem tabledFault_latchLegal {i : Instr} {s : State} {f : FaultLatch} (hevent : s.event = none)
    (h : tabledFault i s = some f) : LatchLegal (s.raise f) := by
  cases i with
  | op00EE | op2NNN =>
    simp only [tabledFault, Option.ite_none_right_eq_some, Option.some.injEq] at h
    obtain ⟨-, rfl⟩ := h
    exact ⟨rfl, rfl, hevent⟩
  | opEX9E | opEXA1 =>
    simp only [tabledFault, ← invalidKey_eq, Option.ite_none_right_eq_some, Option.some.injEq] at h
    obtain ⟨hkey, rfl⟩ := h
    exact latchLegal_invalidKey hevent hkey
  | opFX33 | opFX55 | opFX65 | opDXYN => exact latchLegal_indexFault hevent (by decide) h
  | _ => cases h

/-- Settles O59: a step reports an unknown word only in a core without a fault, and what it latches is a row
of the table. -/
theorem stepKeepsFaultLatchLegal : Obligations.StepKeepsFaultLatchLegal := by
  intro s t hs hstep
  cases step_cases hstep with
  | kept h => exact latchLegal_of_event_none hs h.fault h.event
  | reset h =>
    rw [h, LatchLegal, State.doReset_fault]
    exact ⟨rfl, rfl⟩
  | load bytes _ h => exact latchLegal_of_event_none hs (by rw [h]; rfl) (by rw [h]; rfl)
  | fetchFault _ _ h =>
    have hpc := s.pc.isLt
    rw [h]
    exact latchLegal_memoryFault rfl (by decide) (le_max_right _ _) (by omega)
  | instr i u _ _ _ hexec h =>
    obtain ⟨f, hf, rfl⟩ | ⟨hnone, rfl⟩ := exec_cases hexec
    · exact latchLegal_of_event_none (tabledFault_latchLegal rfl hf) h.fault h.event
    · exact latchLegal_of_event_none hs (h.fault.trans (completed_fault hnone))
        (h.event.trans (completed_frame hnone).event)
  | unknown op w hrun _ _ _ h => exact latchLegal_of_running hs hrun h.fault

/-! ## The key wait -/

theorem waitsAtKey_of_keepsCore {s t : State} (hs : WaitsAtKey s) (h : KeepsCore s t) : WaitsAtKey t := by
  unfold WaitsAtKey
  rwa [h.haltedForKey, h.stepped, h.pc, h.mem]

theorem waitsAtKey_of_not_halted {s : State} (h : s.haltedForKey = false) : WaitsAtKey s :=
  fun hhalted => absurd hhalted (by rw [h]; decide)

/-- A core at another word than an `FX0A` is not waiting. -/
theorem not_halted_of_decode {s : State} (hs : WaitsAtKey s) {d : Decoded}
    (hdecode : decode (wordOfBytes (s.mem.peek s.pc.toNat) (s.mem.peek (s.pc.toNat + 1))) = d)
    (hother : ∀ x, d ≠ .instr (.opFX0A x)) : s.haltedForKey = false := by
  by_contra hhalted
  obtain ⟨-, -, x, hwait⟩ := hs (eq_true_of_ne_false hhalted)
  exact hother x (hdecode.symm.trans hwait)

/-- An `FX0A` waits where it stands, or takes the key and waits no more. -/
theorem completed_opFX0A_waitsAtKey {s : State} {x : Nibble} (hstepped : s.stepped = true)
    (hpc : s.pc.toNat ≤ 4094)
    (hdecode : decode (wordOfBytes (s.mem.peek s.pc.toNat) (s.mem.peek (s.pc.toNat + 1))) =
      .instr (.opFX0A x)) : WaitsAtKey (completed (.opFX0A x) s) := by
  cases hlatch : s.latch with
  | none =>
    rw [completed_opFX0A_of_empty hlatch]
    exact fun _ => ⟨hstepped, hpc, x, hdecode⟩
  | some k =>
    rw [completed_opFX0A_of_latched hlatch]
    exact waitsAtKey_of_not_halted rfl

/-- Settles O60: only an `FX0A` begins a wait; a waiting core runs no other word, fetches without a fault and
takes no LOAD. -/
theorem stepKeepsKeyWaitAtFX0A : Obligations.StepKeepsKeyWaitAtFX0A := by
  intro s t hs hstep
  cases step_cases hstep with
  | kept h => exact waitsAtKey_of_keepsCore (s := s.beginEvent) hs h
  | reset h => rw [h]; exact waitsAtKey_of_not_halted rfl
  | load bytes hfresh h =>
    rw [h]
    intro hhalted
    obtain ⟨hstepped, -⟩ := hs hhalted
    rw [hfresh] at hstepped
    cases hstepped
  | fetchFault _ hpc h =>
    rw [h]
    intro hhalted
    obtain ⟨-, hbelow, -⟩ := hs hhalted
    omega
  | instr i u _ hpc hdecode hexec h =>
    refine waitsAtKey_of_keepsCore (s := u) ?_ h
    by_cases hwait : ∃ x, i = .opFX0A x
    · obtain ⟨x, rfl⟩ := hwait
      injection (exec_of_noFault (i := .opFX0A x) rfl).symm.trans hexec with hu
      rw [← hu]
      exact completed_opFX0A_waitsAtKey rfl hpc hdecode
    · have hrunning := not_halted_of_decode hs hdecode
        fun x hx => hwait ⟨x, Decoded.instr.inj hx⟩
      obtain ⟨-, hsame⟩ | hFX0A := (exec_frame hexec).latch
      · exact waitsAtKey_of_not_halted (hsame.trans hrunning)
      · exact absurd hFX0A hwait
  | unknown op w _ _ hop hdecode h =>
    have hrunning := not_halted_of_decode hs (hop ▸ hdecode) fun x hx => by cases hx
    exact waitsAtKey_of_not_halted (h.haltedForKey.trans hrunning)

/-! ## Reset -/

/-- Settles O56: memory lists nothing, PC and the stack hold their reset values, the latch is clear and the
core does not wait. -/
theorem resetStateMeetsInvariants : Obligations.ResetStateMeetsInvariants :=
  ⟨State.reset_mem_wf, reset_pcAndStackBounded, ⟨rfl, rfl⟩, waitsAtKey_of_not_halted rfl⟩

end Sys2Proof.Machine
end
